-- ==== Sys2Proof/Word.lean ====
section
/-! DEFINITION. The two word types of the block: a byte of the stream and a command or checksum word (R9, R42, R49). -/

namespace Sys2Proof

/-- A byte of the inbound stream, the DATA operand of a command (R42, R50). -/
abbrev Byte := BitVec 8

/-- A 16-bit word: a command (R49), the sum `ck_sum` (R18) or the captured checksum `ck_exp` (R20). -/
abbrev Word := BitVec 16

end Sys2Proof
end

