-- ==== Sys2Proof/Syntax.lean ====
section
/-! DEFINITION. The seven commands of the opcode map (R51), one constructor per row of spec/opcode_table.json. -/

namespace Sys2Proof

/-- A command. Format Z commands have no operand, format B commands carry the byte of DATA (R49, R50). -/
inductive Instr where
  /-- NOP, an idle step (R93). -/
  | nop
  /-- FS_ARM, arm the deadline and start a hunt (R66). -/
  | fsArm
  /-- FS_POLL, a poll without a byte (R70). -/
  | fsPoll
  /-- FS_POLL_BYTE, a poll that offers the byte `b` (R74). -/
  | fsPollByte (b : Byte)
  /-- CK_INIT, clear the accumulator (R84). -/
  | ckInit
  /-- CK_BYTE, take the next RawFrame byte (R85). -/
  | ckByte (b : Byte)
  /-- START, FS_ARM and CK_INIT in one step (R94). -/
  | start
deriving DecidableEq, Repr

end Sys2Proof
end

