-- ==== Sys2Proof/Decode.lean ====
section
/-! DEFINITION. The command word's fields (R49), its legality (R52), the decoder of R55 and the encoder of R51. -/

namespace Sys2Proof

/-- `OP = CMD[15:12]` (R49). -/
def opField (w : Word) : BitVec 4 := w.extractLsb' 12 4

/-- `RSV = CMD[11:8]` (R49). -/
def rsvField (w : Word) : BitVec 4 := w.extractLsb' 8 4

/-- `DATA = CMD[7:0]` (R49, R50). -/
def dataField (w : Word) : Byte := w.extractLsb' 0 8

/-- The legality formula of R52, as the spec writes it. The decoder does not use it: that the two agree is a
statement. -/
def legal (w : Word) : Bool :=
  decide (opField w ≤ 0x6#4) && decide (rsvField w = 0#4) &&
    (decide (opField w = 0x3#4) || decide (opField w = 0x5#4) || decide (dataField w = 0#8))

/-- Why a word is no command (R53). The effect is the same for all three: ILLEGAL_CMD. -/
inductive IllegalWord where
  /-- OP is 0x7 to 0xF (R51, I10). -/
  | reservedOpcode
  /-- RSV is not zero (I11). -/
  | reservedFieldSet
  /-- DATA is not zero in a format Z command (I12). -/
  | strayData
deriving DecidableEq, Repr

/-- A format Z command, whose DATA must be 0x00 (R49, R52). -/
def formatZ (i : Instr) (w : Word) : Except IllegalWord Instr :=
  if dataField w = 0#8 then .ok i else .error .strayData

/-- A format B command, which carries DATA (R49). -/
def formatB (mk : Byte → Instr) (w : Word) : Except IllegalWord Instr :=
  .ok (mk (dataField w))

/-- The decoder: total on any word, an illegal word rejected by name (R51, R52, R55). -/
def decode (w : Word) : Except IllegalWord Instr :=
  if rsvField w = 0#4 then
    match (opField w).toNat with
    | 0x0 => formatZ .nop w
    | 0x1 => formatZ .fsArm w
    | 0x2 => formatZ .fsPoll w
    | 0x3 => formatB .fsPollByte w
    | 0x4 => formatZ .ckInit w
    | 0x5 => formatB .ckByte w
    | 0x6 => formatZ .start w
    | _ => .error .reservedOpcode
  else .error .reservedFieldSet

/-- The opcode column of R51. -/
def opcodeOf : Instr → BitVec 4
  | .nop => 0x0#4
  | .fsArm => 0x1#4
  | .fsPoll => 0x2#4
  | .fsPollByte _ => 0x3#4
  | .ckInit => 0x4#4
  | .ckByte _ => 0x5#4
  | .start => 0x6#4

/-- The DATA field: the operand in format B, 0x00 in format Z (R49). -/
def dataOf : Instr → Byte
  | .nop => 0#8
  | .fsArm => 0#8
  | .fsPoll => 0#8
  | .fsPollByte b => b
  | .ckInit => 0#8
  | .ckByte b => b
  | .start => 0#8

/-- The word of a command: `OP ++ 0b0000 ++ DATA` (R49, R51). -/
def encode (i : Instr) : Word := opcodeOf i ++ 0#4 ++ dataOf i

/-- The word whose low `nbits` bits are those of `w` and whose other bits are 0: spec/opcode_table.json numbers bits
from the least significant bit of the one 16-bit word (R9, R49). -/
def tableWord (nbits w : Nat) : Word := BitVec.ofNat 16 (w % 2 ^ nbits)

/-- The command the decoder reads from an instruction whose bits are `w`, numbered as the opcode table numbers them;
no command has more than 16 bits (R54). -/
def decodeTableWord (nbits w : Nat) : Option Instr :=
  if nbits ≤ 16 then (decode (tableWord nbits w)).toOption else none

end Sys2Proof
end

