-- ==== Sys2Proof/Config.lean ====
section
/-! DEFINITION. The implementation parameters of R7: fixed for a whole run, written by no command (R22).
TICK_BITS is OPEN; the model is written over any configuration. -/

namespace Sys2Proof

/-- What the detector does with a 0x42 that follows a 0x42 (R61, R62, R63). -/
inductive ResyncPolicy where
  | sliding
  | strict
deriving DecidableEq, Repr

/-- Whether the sync step re-arms the deadline (R76). -/
inductive DeadlinePolicy where
  | shared
  | perPhase
deriving DecidableEq, Repr

/-- The parameters of R7. -/
structure Config where
  /-- `TICK_BITS`, the width of every time value; at least 11 (`Config.wf`). -/
  tickBits : Nat
  /-- `BUDGET_MS`, an unsigned value `TICK_BITS` wide (`Config.wf`). -/
  budgetMs : Nat
  resyncPolicy : ResyncPolicy
  deadlinePolicy : DeadlinePolicy
deriving DecidableEq, Repr

/-- The defaults of R7. DESIGN CHOICE (unsafe, log entry 1): R7 leaves TICK_BITS OPEN; 32 is the width that
95_test_vectors.md states for its vectors. No statement needs more of it than that it is legal (R7). -/
def Config.default : Config where
  tickBits := 32
  budgetMs := 1000
  resyncPolicy := .sliding
  deadlinePolicy := .shared

end Sys2Proof
end

