-- ==== Sys2Proof/WellFormed.lean ====
section
/-! DEFINITION. Well-formedness: of a configuration (R7) and of a command (R50). -/

namespace Sys2Proof

/-- R7: TICK_BITS is at least 11 and BUDGET_MS is TICK_BITS wide. -/
abbrev Config.wf (c : Config) : Prop :=
  11 ≤ c.tickBits ∧ c.budgetMs < 2 ^ c.tickBits

/-- Every command of the syntax is well formed: the operand's type is the byte, and every byte value is a legal
operand (R50). One line per constructor, so that a new command must say what it needs. -/
def Instr.wf : Instr → Bool
  | .nop => true
  | .fsArm => true
  | .fsPoll => true
  | .fsPollByte _ => true
  | .ckInit => true
  | .ckByte _ => true
  | .start => true

end Sys2Proof
end

