-- ==== Sys2Proof/Machine/State.lean ====
section
/-! DEFINITION. The state: the seven registers of R14, the configuration of R7, and the inputs of a step (R11).
Also the reasons a step could stop, of which no step of this machine has any (R11: the step is total). -/

namespace Sys2Proof.Machine

/-- The five values of `fs_state` (R15). The encodings 5, 6 and 7 are unreachable and not in the type (R15, I14).
DEDUCED (safe where R28 holds of the block, log entry 7). -/
inductive FsState where
  /-- Not armed; polls do nothing. -/
  | idle
  /-- Armed; the last byte consumed is no candidate first marker byte. -/
  | hunt
  /-- Armed; the last byte consumed was 0x42. -/
  | got42
  /-- The marker was found; terminal until the next arm. -/
  | synced
  /-- The deadline passed first; terminal until the next arm. -/
  | timeout
deriving DecidableEq, Repr

/-- What the host can do to the block (R11, R113). -/
inductive HostEvent where
  /-- One command word and the host clock's millisecond count `nowMs` at the step. The block's `NOW` is that count
  modulo `2^TICK_BITS` (R106, R118). DEDUCED (safe, log entry 5). -/
  | command (word : Word) (nowMs : Nat)
  /-- Reset, "an event outside the command stream" (R113). -/
  | reset
deriving DecidableEq, Repr

/-- The state. `fsState` to `fault` are the registers of R14, "the complete state", under the spec's names. Time values
are natural numbers kept below `2^TICK_BITS` (R9). DESIGN CHOICE (safe, log entry 6). -/
structure State where
  /-- The configuration (R7, R22); no step writes it. DESIGN CHOICE (safe, log entry 1). -/
  cfg : Config
  /-- `fs_state`, 3 bits (R15). -/
  fsState : FsState
  /-- `fs_t_start`, `TICK_BITS` bits (R16): the sample at which the deadline was last armed. -/
  fsTStart : Nat
  /-- `fs_consumed`, 1 bit (R17). -/
  fsConsumed : Bool
  /-- `ck_sum`, 16 bits (R18). -/
  ckSum : Word
  /-- `ck_count`, 5 bits, holding 0 to 30 (R19): the type is exactly these values (I15). DEDUCED (safe where R28 holds
  of the block, log entry 7). -/
  ckCount : Fin 31
  /-- `ck_exp`, 16 bits (R20). -/
  ckExp : Word
  /-- `fault`, 2 bits: bit 0 ILLEGAL_CMD, bit 1 CK_OVERRUN (R21). -/
  fault : BitVec 2
  /-- The model's own: `NOW`, the clock sample of the latest step (R10, R11); `TICK_BITS` bits. DESIGN CHOICE (safe, log
  entry 3). -/
  now : Nat
  /-- The model's own: the host's inputs not yet applied, oldest first. DESIGN CHOICE (safe, log entry 2). -/
  inbox : List HostEvent
deriving DecidableEq, Repr

/-- Reasons to stop with a fault: none. The spec's faults ILLEGAL_CMD and CK_OVERRUN set a sticky bit of the register
`fault` and the block goes on (R100, R102), so they are next states here. DEDUCED (safe for claims that take `fault = 0b00` as a premise, as R100 asks; log entry 10). -/
inductive Fault where
deriving DecidableEq, Repr

/-- Reasons to refuse. -/
inductive Refusal where
  /-- A command without a meaning, refused in exec's arm. No arm uses it: every command of the table is modelled. Safe. -/
  | notModelled (mnemonic : String)
deriving DecidableEq, Repr

/-- The state after reset under a configuration: the register values of R14 and R113.
DESIGN CHOICE: no input waits (safe, log entry 2) and `now` is 0 (unsafe, log entry 3); neither is a register of the
block. -/
def State.resetFor (c : Config) : State where
  cfg := c
  fsState := .idle
  fsTStart := 0
  fsConsumed := false
  ckSum := 0x008F#16
  ckCount := 0
  ckExp := 0x0000#16
  fault := 0b00#2
  now := 0
  inbox := []

/-- The state right after reset (R113) under the default configuration (R7; TICK_BITS: log entry 1). -/
def State.reset : State := State.resetFor Config.default

end Sys2Proof.Machine
end

