-- ==== Sys2Proof/Machine/Operands.lean ====
section
/-! DEFINITION. The fixed constants of R8 and the arithmetic of R9: the modular tick difference, the modulo-65536 sum
and the big-endian halves of the checksum word. -/

namespace Sys2Proof.Machine

/-- `MAGIC0`, the first marker byte (R8). -/
def magic0 : Byte := 0x42#8

/-- `MAGIC1`, the second marker byte (R8). -/
def magic1 : Byte := 0x4D#8

/-- `SUM_LEN`, the number of bytes summed; also `CHK_HI_IDX`, the position of the checksum's high byte (R8). -/
def sumLen : Nat := 28

/-- `FRAME_LEN`, the number of bytes after the marker (R8). -/
def frameLen : Nat := 30

/-- `zext_16` of a byte (R9, R50). -/
def zext16 (b : Byte) : Word := b.setWidth 16

/-- `a +_16 b = (a + b) mod 65536` (R9). -/
def add16 (a b : Word) : Word := a + b

/-- `SEED = (0x42 + 0x4D) mod 65536` (R8). -/
def seed : Word := add16 (zext16 magic0) (zext16 magic1)

/-- `a -_T b = (a - b) mod 2^T` on unsigned values (R9): the exact difference, then narrowed. -/
def tickSub (tickBits a b : Nat) : Nat :=
  (((a : Int) - (b : Int)) % ((2 ^ tickBits : Nat) : Int)).toNat

/-- The sample `NOW` of a clock count: the count modulo `2^TICK_BITS` (R106, R118). DEDUCED (safe, log
entry 5). -/
def sampleClock (c : Config) (nowMs : Nat) : Nat := nowMs % 2 ^ c.tickBits

/-- `v[15:8]`. -/
def highByte (v : Word) : Byte := v.extractLsb' 8 8

/-- `v[7:0]`. -/
def lowByte (v : Word) : Byte := v.extractLsb' 0 8

/-- `hi ++ lo`: the byte that arrives first is the most significant (R37, R38). -/
def bigEndian16 (hi lo : Byte) : Word := hi ++ lo

end Sys2Proof.Machine
end

