-- ==== Sys2Proof/Machine/Flags.lean ====
section
/-! DEFINITION. Every output and status flag of R24 to R27, each a function of the state after a step and the step's
NOW, and the deadline test of R60. -/

namespace Sys2Proof.Machine

/-- The 3-bit encoding of `fs_state` (R15). -/
def fsCode : FsState → BitVec 3
  | .idle => 0#3
  | .hunt => 1#3
  | .got42 => 2#3
  | .synced => 3#3
  | .timeout => 4#3

/-- `fs_state in {HUNT, GOT42}`: armed and still looking. -/
def hunting : FsState → Bool
  | .idle => false
  | .hunt => true
  | .got42 => true
  | .synced => false
  | .timeout => false

/-- `fs_elapsed` (R25), in every `fs_state`. -/
def fsElapsed (s : State) (now : Nat) : Nat := tickSub s.cfg.tickBits now s.fsTStart

/-- The deadline test of a poll, "at least" and not "more than" (R60). -/
def expired (s : State) (now : Nat) : Bool := decide (s.cfg.budgetMs ≤ fsElapsed s now)

/-- `fs_deadline_expired` (R26). -/
def fsDeadlineExpired (s : State) (now : Nat) : Bool :=
  match s.fsState with
  | .timeout => true
  | .hunt => expired s now
  | .got42 => expired s now
  | .synced => expired s now
  | .idle => false

/-- `ck_done` (R24). -/
def ckDone (s : State) : Bool := decide (s.ckCount = 30)

/-- `ck_match` (R27). -/
def ckMatch (s : State) : Bool := ckDone s && decide (s.ckSum = s.ckExp)

/-- `ck_mismatch` (R27). -/
def ckMismatch (s : State) : Bool := ckDone s && decide (s.ckSum ≠ s.ckExp)

/-- The output ports of R24, in its order. -/
structure Outputs where
  fsStatus : BitVec 3
  fsElapsed : Nat
  fsDeadlineExpired : Bool
  fsSyncOk : Bool
  fsSyncTimeout : Bool
  fsConsumed : Bool
  ckCount : BitVec 5
  ckActual : Word
  ckExpected : Word
  ckDone : Bool
  ckMatch : Bool
  ckMismatch : Bool
  fault : BitVec 2
deriving DecidableEq, Repr

/-- `outputs(S', NOW)` of R24. -/
def outputs (s : State) (now : Nat) : Outputs where
  fsStatus := fsCode s.fsState
  fsElapsed := fsElapsed s now
  fsDeadlineExpired := fsDeadlineExpired s now
  fsSyncOk := decide (s.fsState = .synced)
  fsSyncTimeout := decide (s.fsState = .timeout)
  fsConsumed := s.fsConsumed
  ckCount := BitVec.ofNat 5 s.ckCount.val
  ckActual := s.ckSum
  ckExpected := s.ckExp
  ckDone := ckDone s
  ckMatch := ckMatch s
  ckMismatch := ckMismatch s
  fault := s.fault

/-- What the block presents after the step that led to `s` (R24, R55): the outputs at that step's NOW. -/
def presented (s : State) : Outputs := outputs s s.now

end Sys2Proof.Machine
end

