-- ==== Sys2Proof/Machine/Ops.lean ====
section
/-! DEFINITION. The named operations over the registers that more than one command or event uses: the default of
`fs_consumed`, raising a fault, arming, timing out, clearing the accumulator, accepting an input, and reset.

The spec's faults are the block's only exceptions. Taking one sets a bit and writes `fs_consumed`; it saves no state and
redirects nothing (R102), and there is no return from one (R103): only reset clears the bit (R115). -/

namespace Sys2Proof.Machine

/-- The default of R55: every step writes `fs_consumed <- 0` before its command. -/
def defaultConsumed (s : State) : State := { s with fsConsumed := false }

/-- The two faults of R99. -/
inductive FaultBit where
  /-- Bit 0: the command word is not legal. -/
  | illegalCmd
  /-- Bit 1: a CK_BYTE with `ck_count = 30`. -/
  | ckOverrun
deriving DecidableEq, Repr

/-- The bit of `fault` that a fault sets (R21, R99). -/
def faultMask : FaultBit → BitVec 2
  | .illegalCmd => 0b01#2
  | .ckOverrun => 0b10#2

/-- Taking a fault, `raise Fault(F)` in a step of its own (R100): its bit is set, `fs_consumed <- 0`, and no other
register changes. The bits are sticky (R21). -/
def takeFault (f : FaultBit) (s : State) : State :=
  { s with fault := s.fault ||| faultMask f, fsConsumed := false }

/-- Arming (R66): `fs_t_start <- NOW`, `fs_state <- HUNT`, whatever the state was (R67). -/
def armFs (s : State) : State := { s with fsTStart := s.now, fsState := .hunt }

/-- The expiry branch of a poll (R70, R74). -/
def timeOut (s : State) : State := { s with fsState := .timeout }

/-- Clearing the accumulator (R84). -/
def clearCk (s : State) : State :=
  { s with ckSum := seed, ckCount := 0, ckExp := 0x0000#16 }

/-- Accepting the oldest input of the host: it leaves the inbox. -/
def acceptInput (rest : List HostEvent) (s : State) : State := { s with inbox := rest }

/-- Sampling the clock for a step (R11, R106). -/
def sampleNow (nowMs : Nat) (s : State) : State := { s with now := sampleClock s.cfg nowMs }

/-- The step of an illegal word (R53). -/
def illegalStep (s : State) : State := takeFault .illegalCmd s

/-- Reset (R113): every register of R14 takes its reset value; no NOW is read and the configuration is untouched.
DESIGN CHOICE (safe, log entry 3): the sample `now` of the latest step stays. -/
def resetStep (s : State) : State :=
  { State.resetFor s.cfg with now := s.now, inbox := s.inbox }

end Sys2Proof.Machine
end

