-- ==== Sys2Proof/Machine/Checksum.lean ====
section
/-! DEFINITION. The checksum accumulator: CK_INIT (R84) and CK_BYTE (R85). -/

namespace Sys2Proof.Machine

/-- Positions 0 to 27: the byte is added modulo 65536 (R82, R85, R86). -/
def sumByte (b : Byte) (s : State) : State :=
  { s with ckSum := add16 s.ckSum (zext16 b), ckCount := s.ckCount + 1 }

/-- Position 28: the byte is `ck_exp[15:8]` (R82, R85). -/
def captureHigh (b : Byte) (s : State) : State :=
  { s with ckExp := bigEndian16 b (lowByte s.ckExp), ckCount := 29 }

/-- Position 29: the byte is `ck_exp[7:0]` (R82, R85). -/
def captureLow (b : Byte) (s : State) : State :=
  { s with ckExp := bigEndian16 (highByte s.ckExp) b, ckCount := 30 }

/-- CK_INIT (R84). -/
def execCkInit (s : State) : Host.Outcome State Fault Refusal :=
  .next (clearCk (defaultConsumed s))

/-- CK_BYTE (R85): the byte's position decides; a 31st byte is dropped and overruns (R87). The FS's state does not
matter (R91). -/
def execCkByte (b : Byte) (s : State) : Host.Outcome State Fault Refusal :=
  if s.ckCount ≤ 27 then .next (sumByte b (defaultConsumed s))
  else if s.ckCount = 28 then .next (captureHigh b (defaultConsumed s))
  else if s.ckCount = 29 then .next (captureLow b (defaultConsumed s))
  else .next (takeFault .ckOverrun s)

end Sys2Proof.Machine
end

