-- ==== Sys2Proof/Machine/Control.lean ====
section
/-! DEFINITION. The control commands NOP (R93) and START (R94). -/

namespace Sys2Proof.Machine

/-- NOP (R93): no register changes but for the default of `fs_consumed`. It never times out the FS. -/
def execNop (s : State) : Host.Outcome State Fault Refusal := .next (defaultConsumed s)

/-- START (R94): arms the FS and clears the CK in one step; the fault bits are kept. -/
def execStart (s : State) : Host.Outcome State Fault Refusal :=
  .next (clearCk (armFs (defaultConsumed s)))

end Sys2Proof.Machine
end

