-- ==== Sys2Proof/Machine/FrameSync.lean ====
section
/-! DEFINITION. The frame synchronizer: the marker detector under both policies (R61, R62) and the commands FS_ARM
(R66), FS_POLL (R70) and FS_POLL_BYTE (R74). -/

namespace Sys2Proof.Machine

/-- The cell GOT42 with b = 0x42, the one cell where the policies differ (R61, R62). -/
def afterRepeated42 : ResyncPolicy → FsState
  | .sliding => .got42
  | .strict => .hunt

/-- `next(fs_state, b, RESYNC_POLICY)`: the tables of R61 and R62. They have rows for HUNT and GOT42 only; a poll
consults them in no other state (R74), and there the function gives the state back. -/
def detectorNext (p : ResyncPolicy) (st : FsState) (b : Byte) : FsState :=
  match st with
  | .hunt => if b = magic0 then .got42 else .hunt
  | .got42 => if b = magic1 then .synced else if b = magic0 then afterRepeated42 p else .hunt
  | .idle => .idle
  | .synced => .synced
  | .timeout => .timeout

/-- PER_PHASE re-arms the deadline on the step that enters SYNCED; SHARED keeps it (R76). -/
def rearmOnSync (s : State) : State :=
  if s.fsState = .synced ∧ s.cfg.deadlinePolicy = .perPhase then { s with fsTStart := s.now } else s

/-- Taking the offered byte (the last branch of R74): `fs_consumed <- 1`, the detector advances, and the deadline is
re-armed where R76 says so. -/
def consumeByte (b : Byte) (s : State) : State :=
  rearmOnSync
    { s with fsConsumed := true, fsState := detectorNext s.cfg.resyncPolicy s.fsState b }

/-- FS_ARM (R66). -/
def execFsArm (s : State) : Host.Outcome State Fault Refusal :=
  .next (armFs (defaultConsumed s))

/-- FS_POLL (R70): in HUNT or GOT42 with the deadline reached, TIMEOUT; otherwise nothing (R71). -/
def execFsPoll (s : State) : Host.Outcome State Fault Refusal :=
  if hunting s.fsState && expired s s.now then .next (timeOut (defaultConsumed s))
  else .next (defaultConsumed s)

/-- FS_POLL_BYTE (R74): the state test, then the deadline, then the byte (R75, R101). -/
def execFsPollByte (b : Byte) (s : State) : Host.Outcome State Fault Refusal :=
  if hunting s.fsState then
    if expired s s.now then .next (timeOut (defaultConsumed s))
    else .next (consumeByte b (defaultConsumed s))
  else .next (defaultConsumed s)

end Sys2Proof.Machine
end

