-- ==== Sys2Proof/Machine/Dispatch.lean ====
section
/-! DEFINITION. The dispatch of a legal command to its meaning (R55). -/

namespace Sys2Proof.Machine

/-- The effect of a command at the sample `s.now` (R55). -/
def exec (i : Instr) (s : State) : Host.Outcome State Fault Refusal :=
  match i with
  | .nop => Sys2Proof.Machine.execNop s
  | .fsArm => Sys2Proof.Machine.execFsArm s
  | .fsPoll => Sys2Proof.Machine.execFsPoll s
  | .fsPollByte b => Sys2Proof.Machine.execFsPollByte b s
  | .ckInit => Sys2Proof.Machine.execCkInit s
  | .ckByte b => Sys2Proof.Machine.execCkByte b s
  | .start => Sys2Proof.Machine.execStart s

end Sys2Proof.Machine
end

