-- ==== Sys2Proof/Machine/Step.lean ====
section
/-! DEFINITION. One step: the oldest input of the host is applied (R11, R55, R113). -/

namespace Sys2Proof.Machine

/-- `step(S, CMD, NOW)` of R11 and R55, with CMD and NOW taken from the oldest input. A legal word is executed, an
illegal one faults (R53), a reset resets (R113). With no input the block "holds its state and does nothing" (R112).
DEDUCED (safe, log entry 2). -/
def step (s : State) : Host.Outcome State Fault Refusal :=
  match s.inbox with
  | [] => .next s
  | .reset :: rest => .next (resetStep (acceptInput rest s))
  | .command w nowMs :: rest =>
    match decode w with
    | .ok i => exec i (sampleNow nowMs (acceptInput rest s))
    | .error _ => .next (illegalStep (sampleNow nowMs (acceptInput rest s)))

/-- `s` with the word of the opcode table's bits `w` offered as the very next command, at the clock sample `s` holds.
The block fetches nothing (R13): the host's next command is where the step takes its word from. DESIGN CHOICE (safe, log entry 4). -/
def State.withFetchWord (s : State) (nbits w : Nat) : State :=
  { s with inbox := .command (tableWord nbits w) s.now :: s.inbox }

end Sys2Proof.Machine
end

