-- ==== Sys2Proof/Machine/Assembler.lean ====
section
/-! DEFINITION. The spec's textual form of a command (R58): the text of a command, and the reader of a text. -/

namespace Sys2Proof.Machine

/-- The mnemonics of R51, letter for letter. -/
def mnemonicOf : Instr → List Char
  | .nop => ['N', 'O', 'P']
  | .fsArm => ['F', 'S', '_', 'A', 'R', 'M']
  | .fsPoll => ['F', 'S', '_', 'P', 'O', 'L', 'L']
  | .fsPollByte _ => ['F', 'S', '_', 'P', 'O', 'L', 'L', '_', 'B', 'Y', 'T', 'E']
  | .ckInit => ['C', 'K', '_', 'I', 'N', 'I', 'T']
  | .ckByte _ => ['C', 'K', '_', 'B', 'Y', 'T', 'E']
  | .start => ['S', 'T', 'A', 'R', 'T']

/-- The hexadecimal digits, as the spec's own texts write them (0x4D, 0x1C). -/
def hexDigits : List Char :=
  ['0', '1', '2', '3', '4', '5', '6', '7', '8', '9', 'A', 'B', 'C', 'D', 'E', 'F']

/-- A `hexdigit` of R58. -/
def hexDigit (d : BitVec 4) : Char := hexDigits.getD d.toNat '0'

/-- The value of a `hexdigit`; R58 does not say which letters it takes, and both cases are read. DESIGN CHOICE
(safe, log entry 8). -/
def hexValue (c : Char) : Option (BitVec 4) :=
  let v := c.toNat
  if 48 ≤ v ∧ v ≤ 57 then some (BitVec.ofNat 4 (v - 48))
  else if 65 ≤ v ∧ v ≤ 70 then some (BitVec.ofNat 4 (v - 55))
  else if 97 ≤ v ∧ v ≤ 102 then some (BitVec.ofNat 4 (v - 87))
  else none

/-- `byte := "0x" hexdigit hexdigit` (R58). -/
def byteText (b : Byte) : List Char :=
  ['0', 'x', hexDigit (b.extractLsb' 4 4), hexDigit (b.extractLsb' 0 4)]

/-- `command := zcmd | bcmd` (R58): the text of a command. -/
def commandText (i : Instr) : List Char :=
  match i with
  | .fsPollByte b => mnemonicOf i ++ ' ' :: byteText b
  | .ckByte b => mnemonicOf i ++ ' ' :: byteText b
  | .nop => mnemonicOf i
  | .fsArm => mnemonicOf i
  | .fsPoll => mnemonicOf i
  | .ckInit => mnemonicOf i
  | .start => mnemonicOf i

/-- Reading a `byte`. -/
def readByte : List Char → Option Byte
  | ['0', 'x', h, l] =>
    match hexValue h, hexValue l with
    | some hv, some lv => some (hv ++ lv)
    | _, _ => none
  | _ => none

/-- The rest of a text after a given beginning. -/
def afterWord : List Char → List Char → Option (List Char)
  | [], cs => some cs
  | p :: ps, c :: cs => if p = c then afterWord ps cs else none
  | _ :: _, [] => none

/-- Reading a `bcmd` with the mnemonic `name`. -/
def readWithByte (name : List Char) (mk : Byte → Instr) (cs : List Char) : Option Instr :=
  ((afterWord (name ++ [' ']) cs).bind readByte).map mk

/-- Reading a `command` (R58); a text that is no command is refused. -/
def readCommand (cs : List Char) : Option Instr :=
  if cs = mnemonicOf .nop then some .nop
  else if cs = mnemonicOf .fsArm then some .fsArm
  else if cs = mnemonicOf .fsPoll then some .fsPoll
  else if cs = mnemonicOf .ckInit then some .ckInit
  else if cs = mnemonicOf .start then some .start
  else
    (readWithByte (mnemonicOf (.fsPollByte 0#8)) .fsPollByte cs).or
      (readWithByte (mnemonicOf (.ckByte 0#8)) .ckByte cs)

/-- A `decimal` of R58: the digits of a number, without leading zeros. DESIGN CHOICE (safe, log entry 8). -/
def decimalText (n : Nat) : List Char := Nat.toDigits 10 n

/-- `timed := "@" decimal " " command` (R58): the text of a command with its clock in decimal milliseconds. -/
def timedText (nowMs : Nat) (i : Instr) : List Char :=
  '@' :: (decimalText nowMs ++ ' ' :: commandText i)

/-- The value of a decimal digit. -/
def decimalValue (c : Char) : Option Nat :=
  if 48 ≤ c.toNat ∧ c.toNat ≤ 57 then some (c.toNat - 48) else none

/-- Reading the digits of a `decimal` up to the space after it: the value and what follows the space. `seen` says
whether a digit was read; zeros may lead. DESIGN CHOICE (safe, log entry 8). -/
def readDecimal (seen : Bool) (value : Nat) : List Char → Option (Nat × List Char)
  | ' ' :: cs => if seen then some (value, cs) else none
  | c :: cs =>
    match decimalValue c with
    | some d => readDecimal true (10 * value + d) cs
    | none => none
  | [] => none

/-- Reading a `timed` command, `"@" decimal " " command` (R58): the clock in decimal milliseconds and the command. -/
def readTimed : List Char → Option (Nat × Instr)
  | '@' :: cs =>
    match readDecimal false 0 cs with
    | some (nowMs, rest) => (readCommand rest).map fun i => (nowMs, i)
    | none => none
  | _ => none

end Sys2Proof.Machine
end

