-- ==== Sys2Proof/Machine/HostSide.lean ====
section
/-! DEFINITION. The host's side of the interface: applying inputs one by one (R11), the byte stream and the polling
loop (R33 to R35, R122), the reader's feed and one frame attempt (R117), and the reading of its outcome (R96).
None of it is in the block: it says how a host that keeps its duties drives `step`. DESIGN CHOICE (safe, log entry 9). -/

namespace Sys2Proof.Machine

/-- Going on from a next state; a stop stays a stop. -/
def andThen {α β : Type} (o : Host.Outcome α Fault Refusal)
    (f : α → Host.Outcome β Fault Refusal) : Host.Outcome β Fault Refusal :=
  match o with
  | .next a => f a
  | .fault r => .fault r
  | .refused r => .refused r

/-- One step on the given input, ahead of any that wait: with a command it is `step(S, CMD, NOW)` of R11. -/
def applyEvent (e : HostEvent) (s : State) : Host.Outcome State Fault Refusal :=
  step { s with inbox := e :: s.inbox }

/-- Steps on the given inputs, in the order the host issues them (R45). -/
def applyEvents : List HostEvent → State → Host.Outcome State Fault Refusal
  | [], s => .next s
  | e :: es, s => andThen (applyEvent e s) (applyEvents es)

/-- `@nowMs i` (R58): the command with the clock count of its step. -/
def commandAt (nowMs : Nat) (i : Instr) : HostEvent := .command (encode i) nowMs

/-- The poll that R33 prescribes for what `read(1)` gave. -/
def pollFor : Option Byte → Instr
  | none => .fsPoll
  | some b => .fsPollByte b

/-- The stream after a step: its head is gone exactly when the step set `fs_consumed` (R34); otherwise it is still
owed to the stream (R35, R122). -/
def streamAfter (stream : List Byte) (s' : State) : List Byte :=
  if s'.fsConsumed then stream.tail else stream

/-- One turn of the polling loop: the clock count, and whether the transport gives a byte at that moment. Whether it
does is the host's and the transport's (I6). -/
structure PollTurn where
  nowMs : Nat
  delivers : Bool
deriving DecidableEq, Repr

/-- What the host offers in a turn: at most the head of the stream (R32, R33). -/
def offered (turn : PollTurn) (stream : List Byte) : Option Byte :=
  if turn.delivers then stream.head? else none

/-- The command of a turn (R33). -/
def pollInput (turn : PollTurn) (stream : List Byte) : HostEvent :=
  commandAt turn.nowMs (pollFor (offered turn stream))

/-- One poll of the host (R33, R34): the block's state and the stream after it. -/
def hostPoll (turn : PollTurn) (s : State) (stream : List Byte) :
    Host.Outcome (State × List Byte) Fault Refusal :=
  andThen (applyEvent (pollInput turn stream) s)
    fun s' => .next (s', streamAfter stream s')

/-- The loop `repeat ... until fs_status in (SYNCED, TIMEOUT)` of R117, over as many turns as the host gives. -/
def huntLoop : List PollTurn → State → List Byte → Host.Outcome (State × List Byte) Fault Refusal
  | [], s, stream => .next (s, stream)
  | turn :: turns, s, stream =>
    if hunting s.fsState then
      andThen (hostPoll turn s stream) fun p => huntLoop turns p.1 p.2
    else .next (s, stream)

/-- The commands that loop issues, one for each turn in which the FS still hunts. -/
def huntInputs : List PollTurn → State → List Byte → List HostEvent
  | [], _, _ => []
  | turn :: turns, s, stream =>
    if hunting s.fsState then
      match hostPoll turn s stream with
      | .next p => pollInput turn stream :: huntInputs turns p.1 p.2
      | .fault _ => [pollInput turn stream]
      | .refused _ => [pollInput turn stream]
    else []

/-- The reader's feed (R117, R123): one CK_BYTE for each byte it reads, at the given clock counts, in arrival order. -/
def feedFrame : List Nat → State → List Byte → Host.Outcome (State × List Byte) Fault Refusal
  | [], s, stream => .next (s, stream)
  | _ :: _, s, [] => .next (s, [])
  | nowMs :: times, s, b :: stream =>
    andThen (applyEvent (commandAt nowMs (.ckByte b)) s) fun s' => feedFrame times s' stream

/-- One frame attempt (R117): START, the polling loop, and, if SYNCED, at most the 30 bytes after the marker (R124). -/
def attempt (startMs : Nat) (turns : List PollTurn) (readTimes : List Nat) (s : State)
    (stream : List Byte) : Host.Outcome (State × List Byte) Fault Refusal :=
  andThen (applyEvent (commandAt startMs .start) s) fun s0 =>
    andThen (huntLoop turns s0 stream) fun p =>
      if p.1.fsState = .synced then feedFrame (readTimes.take frameLen) p.1 p.2 else .next p

/-- What an attempt came to, in the error kinds of R96. -/
inductive AttemptResult where
  /-- Not decided: still hunting (R120), or never armed. -/
  | undecided
  /-- SyncTimeout: the FS's own result (R79). -/
  | syncTimeout
  /-- SYNCED with fewer than 30 bytes fed: the reader's ReadTimeout, with the count (R92, R96). -/
  | incomplete (count : Nat)
  /-- ChecksumMismatch, with both values (R27, R96). -/
  | checksumMismatch (expected actual : Word)
  /-- The frame is valid (R81). -/
  | valid
deriving DecidableEq, Repr

/-- Reading the outcome from the outputs alone, as the host does (R98, R117). -/
def readResult (o : Outputs) : AttemptResult :=
  if o.fsSyncTimeout then .syncTimeout
  else if o.fsSyncOk then
    if o.ckMatch then .valid
    else if o.ckMismatch then .checksumMismatch o.ckExpected o.ckActual
    else .incomplete o.ckCount.toNat
  else .undecided

end Sys2Proof.Machine
end

