-- ==== Sys2Proof/Safety.lean ====
section
/-! DEFINITION. What claims are stated in terms of: the invariant of reachable states (R28, and the widths of R14),
agreement on the registers, and the host's duties that a claim takes as premises (R118, R121, R124). -/

namespace Sys2Proof.Machine

/-- The invariants of R28 that speak of one state: the FS state is one of the five, `ck_count` is at most 30, and
`ck_exp` holds no bit that has not been written. -/
abbrev State.registersLegal (s : State) : Prop :=
  (fsCode s.fsState).toNat ≤ 4 ∧ s.ckCount.val ≤ 30 ∧
    (s.ckCount.val ≤ 28 → s.ckExp = 0x0000#16) ∧
    (s.ckCount.val = 29 → lowByte s.ckExp = 0x00#8)

/-- The widths of the time values (R7, R10, R16): a legal configuration, and samples that fit in `TICK_BITS` bits. -/
abbrev State.widthsLegal (s : State) : Prop :=
  s.cfg.wf ∧ s.fsTStart < 2 ^ s.cfg.tickBits ∧ s.now < 2 ^ s.cfg.tickBits

/-- The invariant of the model. -/
abbrev State.inv (s : State) : Prop := s.registersLegal ∧ s.widthsLegal

/-- R29 as an invariant: `ck_sum` is at most the seed and 255 for each byte summed, so it does not wrap. -/
abbrev State.sumBounded (s : State) : Prop :=
  s.ckSum.toNat ≤ 0x8F + 0xFF * min s.ckCount.val 28

/-- Agreement on the three FS registers (R14). -/
abbrev State.sameFs (s t : State) : Prop :=
  s.fsState = t.fsState ∧ s.fsTStart = t.fsTStart ∧ s.fsConsumed = t.fsConsumed

/-- Agreement on the three CK registers (R14). -/
abbrev State.sameCk (s t : State) : Prop :=
  s.ckSum = t.ckSum ∧ s.ckCount = t.ckCount ∧ s.ckExp = t.ckExp

/-- Agreement on every register of R14. -/
abbrev State.sameRegisters (s t : State) : Prop :=
  s.sameFs t ∧ s.sameCk t ∧ s.fault = t.fault

/-- No fault was ever raised: the premise claims about a run take (R100). -/
abbrev State.faultFree (s : State) : Prop := s.fault = 0b00#2

/-- A command that arms the deadline: FS_ARM or START (R69). -/
def isArm : Instr → Bool
  | .nop => false
  | .fsArm => true
  | .fsPoll => false
  | .fsPollByte _ => false
  | .ckInit => false
  | .ckByte _ => false
  | .start => true

/-- A command that clears the accumulator: CK_INIT or START (R84, R94). -/
def isClear : Instr → Bool
  | .nop => false
  | .fsArm => false
  | .fsPoll => false
  | .fsPollByte _ => false
  | .ckInit => true
  | .ckByte _ => false
  | .start => true

/-- The command, if any, that an input brings. -/
def commandOf : HostEvent → Option Instr
  | .command w _ => (decode w).toOption
  | .reset => none

/-- The input is a reset (R113). -/
def isReset : HostEvent → Bool
  | .command _ _ => false
  | .reset => true

/-- The input arms the FS or resets the block. -/
def armsOrResets (e : HostEvent) : Bool := isReset e || (commandOf e).any isArm

/-- The input clears the CK or resets the block. -/
def clearsOrResets (e : HostEvent) : Bool := isReset e || (commandOf e).any isClear

/-- The CK's part of a command (R51, the column "unit"): CK_INIT and START clear, CK_BYTE feeds its byte. -/
inductive CkAction where
  | clear
  | feed (b : Byte)
deriving DecidableEq, Repr

/-- What a command does to the CK. -/
def ckActionOf : Instr → Option CkAction
  | .nop => none
  | .fsArm => none
  | .fsPoll => none
  | .fsPollByte _ => none
  | .ckInit => some .clear
  | .ckByte b => some (.feed b)
  | .start => some .clear

/-- The CK's part of an input. -/
def ckEvent (e : HostEvent) : Option CkAction := (commandOf e).bind ckActionOf

/-- The byte a CK_BYTE hands the CK. -/
def fedByte (e : HostEvent) : Option Byte :=
  match ckEvent e with
  | some (.feed b) => some b
  | some .clear => none
  | none => none

/-- The byte a command offers the FS. -/
def offeredByteOf : Instr → Option Byte
  | .nop => none
  | .fsArm => none
  | .fsPoll => none
  | .fsPollByte b => some b
  | .ckInit => none
  | .ckByte _ => none
  | .start => none

/-- The byte an input offers the FS. -/
def polledByte (e : HostEvent) : Option Byte := (commandOf e).bind offeredByteOf

/-- The bytes the FS consumes while the inputs are applied, in order (R64): those offered in steps that set
`fs_consumed` (R34). -/
def consumedBytes : List HostEvent → State → List Byte
  | [], _ => []
  | e :: es, s =>
    match applyEvent e s with
    | .next s' => (if s'.fsConsumed then (polledByte e).toList else []) ++ consumedBytes es s'
    | .fault _ => []
    | .refused _ => []

/-- A whole frame fed to the CK at one clock count: CK_INIT and a CK_BYTE for each byte (R88). -/
def frameEvents (nowMs : Nat) (frame : List Byte) : List HostEvent :=
  commandAt nowMs .ckInit :: frame.map fun b => commandAt nowMs (.ckByte b)

/-- R118: the clock counts never decrease, `last` being the one before. -/
def clockMonotone : Nat → List HostEvent → Bool
  | _, [] => true
  | last, .command _ nowMs :: es => decide (last ≤ nowMs) && clockMonotone nowMs es
  | last, .reset :: es => clockMonotone last es

/-- The clock count of the last command, `last` being the one before. -/
def lastClock : Nat → List HostEvent → Nat
  | last, [] => last
  | _, .command _ nowMs :: es => lastClock nowMs es
  | last, .reset :: es => lastClock last es

/-- R121: from one poll to the next, and from the arm at `last` to the first, the true time does not decrease and is
less than `2^TICK_BITS - BUDGET_MS`. -/
def pollsWithinWrap (c : Config) : Nat → List Nat → Bool
  | _, [] => true
  | last, t :: ts =>
    decide (last ≤ t) && decide (t - last < 2 ^ c.tickBits - c.budgetMs) && pollsWithinWrap c t ts

/-- R124: no 31st CK_BYTE after a clear, `fed` being the number of bytes already fed. -/
def feedsWithinFrame : Nat → List Instr → Bool
  | _, [] => true
  | fed, .ckByte _ :: is => decide (fed < frameLen) && feedsWithinFrame (fed + 1) is
  | _, .ckInit :: is => feedsWithinFrame 0 is
  | _, .start :: is => feedsWithinFrame 0 is
  | fed, .nop :: is => feedsWithinFrame fed is
  | fed, .fsArm :: is => feedsWithinFrame fed is
  | fed, .fsPoll :: is => feedsWithinFrame fed is
  | fed, .fsPollByte _ :: is => feedsWithinFrame fed is

end Sys2Proof.Machine
end

