-- ==== Sys2Proof/Certificates/Slice0/Obligations.lean ====
section
/-! DEFINITION. The statements for the provers, each formalising rules of spec/ named in its docstring.
`exec i s` is the command `i` at the sample `s.now`; `applyEvent (.command CMD t) s` is the `step(S, CMD, NOW)` of R11
with NOW the sample of the clock count `t`. That inputs wait in `inbox`, that NOW is the count modulo `2^TICK_BITS` and that it is
kept in `now` are the model's: log entries 2, 5 and 3. The host's side (`huntLoop`, `attempt`, `readResult`) is log entry 9. -/

open Sys2Proof Sys2Proof.Machine

/-! ## Reset -/

/-- R113: after reset every register of R14 has its reset value, under every configuration; and the reset event
writes these values from any state, reads no NOW, takes no byte and leaves the configuration. -/
def Obligations.ResetWritesEveryRegister : Prop :=
  (∀ c : Config, (State.resetFor c).fsState = .idle ∧ (State.resetFor c).fsTStart = 0 ∧
    (State.resetFor c).fsConsumed = false ∧ (State.resetFor c).ckSum = 0x008F#16 ∧
    (State.resetFor c).ckCount = 0 ∧ (State.resetFor c).ckExp = 0x0000#16 ∧
    (State.resetFor c).fault = 0b00#2) ∧
  State.reset.sameRegisters (State.resetFor State.reset.cfg) ∧
  ∀ (s : State) (rest : List HostEvent), s.inbox = .reset :: rest →
    ∃ t, step s = .next t ∧ t.sameRegisters (State.resetFor s.cfg) ∧ t.cfg = s.cfg ∧ t.inbox = rest

/-- R114: after reset, polls and every other input that is no arm leave the FS as reset left it and take no byte; and
a CK_BYTE right after reset is accumulated as position 0. -/
def Obligations.AfterResetPollsDoNothingAndChecksumIsReady : Prop :=
  (∀ (c : Config) (es : List HostEvent), (∀ e ∈ es, armsOrResets e = false) →
    ∃ t, applyEvents es (State.resetFor c) = .next t ∧ t.sameFs (State.resetFor c) ∧
      consumedBytes es (State.resetFor c) = []) ∧
  ∀ (c : Config) (b : Byte), ∃ t, exec (.ckByte b) (State.resetFor c) = .next t ∧
    t.ckSum = 0x008F#16 + b.setWidth 16 ∧ t.ckCount = 1 ∧ t.ckExp = 0x0000#16 ∧ t.fault = 0b00#2

/-! ## Encoding -/

/-- R52: a word decodes to a command exactly when the legality formula holds of it, and 517 words are legal. -/
def Obligations.LegalityFormulaAndCount : Prop :=
  (∀ w : Word, (∃ i, decode w = .ok i) ↔
    (w.extractLsb' 12 4 ≤ 0x6#4 ∧ w.extractLsb' 8 4 = 0b0000#4 ∧
      ((w.extractLsb' 12 4 = 0x3#4 ∨ w.extractLsb' 12 4 = 0x5#4) ∨ w.extractLsb' 0 8 = 0x00#8))) ∧
  (∀ w : Word, legal w = true ↔ ∃ i, decode w = .ok i) ∧
  ((List.range 65536).filter fun n => legal (BitVec.ofNat 16 n)).length = 517

/-- R49, R51: words written out from the opcode map decode to the commands they stand for, and reserved words do not. -/
def Obligations.OpcodeMapWordsDecode : Prop :=
  decode 0x0000#16 = .ok .nop ∧ decode 0x1000#16 = .ok .fsArm ∧ decode 0x2000#16 = .ok .fsPoll ∧
  decode 0x3042#16 = .ok (.fsPollByte 0x42#8) ∧ decode 0x4000#16 = .ok .ckInit ∧
  decode 0x50FF#16 = .ok (.ckByte 0xFF#8) ∧ decode 0x6000#16 = .ok .start ∧
  decode 0x7000#16 = .error .reservedOpcode ∧ decode 0x3142#16 = .error .reservedFieldSet ∧
  decode 0x60FF#16 = .error .strayData

/-- Decode and encode agree (R49, R51): the word of every well-formed command, at every operand, decodes to it, also
through the opcode table's numbering of bits. -/
def Obligations.DecodeOfEncodeIsTheCommand : Prop :=
  ∀ i : Instr, i.wf = true →
    decode (encode i) = .ok i ∧ decodeTableWord 16 (encode i).toNat = some i

/-- No other word is a command's: a word that decodes to a command is the word of that command, so no bit of a word is
ignored (R49, R52, R54). -/
def Obligations.EncodeOfDecodeIsTheWord : Prop :=
  ∀ (w : Word) (i : Instr), decode w = .ok i → encode i = w

/-- R58: reading the text of a command gives the command back, and reading it with any clock count `n` before it, written in decimal
digits, gives `n` and the command. That zeros may lead the digits, and that without a digit the text is refused, is the model's reading of
`decimal`, for which R58 gives no production (log entry 8). -/
def Obligations.AssemblerTextReadsBack : Prop :=
  ∀ i : Instr, readCommand (commandText i) = some i ∧
    (∀ n : Nat, readTimed (timedText n i) = some (n, i)) ∧
    (∀ n zeros : Nat, readTimed ('@' :: (List.replicate zeros '0' ++ Nat.toDigits 10 n ++ ' ' :: commandText i)) =
      some (n, i)) ∧
    readTimed ('@' :: ' ' :: commandText i) = none

/-! ## The step -/

/-- R11, R55: when the oldest input is a word that decodes to the well-formed command `i`, the step is the command `i` with NOW. What
stands around the command is the model's choice, not the rules': the inputs wait in `inbox` and the applied one leaves it (log entry 2),
NOW is kept in `now` (log entry 3) and is the input's clock count modulo `2^TICK_BITS` (log entry 5). -/
def Obligations.StepRunsTheDecodedCommand : Prop :=
  ∀ (s : State) (w : Word) (nowMs : Nat) (rest : List HostEvent) (i : Instr),
    s.inbox = .command w nowMs :: rest → decode w = .ok i → i.wf = true →
      step s = exec i { s with now := nowMs % 2 ^ s.cfg.tickBits, inbox := rest }

/-- R53: a word whose OP is reserved, whose RSV is not zero, or whose DATA is not zero in format Z sets `fault[0]`,
writes `fs_consumed <- 0` and changes no other register. -/
def Obligations.IllegalWordFaultsAndChangesNothingElse : Prop :=
  ∀ (s : State) (w : Word) (nowMs : Nat) (rest : List HostEvent),
    s.inbox = .command w nowMs :: rest →
    (0x7#4 ≤ w.extractLsb' 12 4 ∨ w.extractLsb' 8 4 ≠ 0#4 ∨
      (w.extractLsb' 12 4 ≠ 0x3#4 ∧ w.extractLsb' 12 4 ≠ 0x5#4 ∧ w.extractLsb' 0 8 ≠ 0#8)) →
    step s = .next { s with
      fault := s.fault ||| 0b01#2
      fsConsumed := false
      now := nowMs % 2 ^ s.cfg.tickBits
      inbox := rest }

/-- R11: the step is total, whatever the state and the inputs. -/
def Obligations.EveryStepAnswersANextState : Prop :=
  (∀ s : State, ∃ t, step s = .next t) ∧ (∀ (i : Instr) (s : State), ∃ t, exec i s = .next t)

/-- The model's choice (log entry 2, from R112 "Between two commands it holds its state and does nothing"): with no
input the step changes nothing. -/
def Obligations.BlockWithoutInputHoldsItsState : Prop :=
  ∀ s : State, s.inbox = [] → step s = .next s

/-- R22: no command writes the configuration; no step does. -/
def Obligations.NoStepWritesTheConfiguration : Prop :=
  ∀ s t : State, step s = .next t → t.cfg = s.cfg

/-! ## Outputs -/

/-- R24 to R27: every output is the stated function of the state and NOW. -/
def Obligations.OutputsAreTheTable : Prop :=
  ∀ (s : State) (now : Nat),
    (outputs s now).fsStatus = (match s.fsState with
      | .idle => 0#3 | .hunt => 1#3 | .got42 => 2#3 | .synced => 3#3 | .timeout => 4#3) ∧
    (((outputs s now).fsElapsed : Nat) : Int) =
      ((now : Int) - (s.fsTStart : Int)) % ((2 ^ s.cfg.tickBits : Nat) : Int) ∧
    (outputs s now).fsDeadlineExpired = (match s.fsState with
      | .timeout => true
      | .hunt | .got42 | .synced => decide (s.cfg.budgetMs ≤ (outputs s now).fsElapsed)
      | .idle => false) ∧
    ((outputs s now).fsSyncOk = true ↔ s.fsState = .synced) ∧
    ((outputs s now).fsSyncTimeout = true ↔ s.fsState = .timeout) ∧
    (outputs s now).fsConsumed = s.fsConsumed ∧
    (outputs s now).ckCount.toNat = s.ckCount.val ∧
    (outputs s now).ckActual = s.ckSum ∧ (outputs s now).ckExpected = s.ckExp ∧
    ((outputs s now).ckDone = true ↔ s.ckCount = 30) ∧
    ((outputs s now).ckMatch = true ↔ s.ckCount = 30 ∧ s.ckSum = s.ckExp) ∧
    ((outputs s now).ckMismatch = true ↔ s.ckCount = 30 ∧ s.ckSum ≠ s.ckExp) ∧
    (outputs s now).fault = s.fault

/-- R107: the modular difference of two samples is the true elapsed time whenever that is below `2^TICK_BITS`, whether
or not the counter wrapped; and the rule's example. -/
def Obligations.ElapsedIsTrueBelowTheWrap : Prop :=
  (∀ (c : Config) (startMs nowMs : Nat), startMs ≤ nowMs → nowMs - startMs < 2 ^ c.tickBits →
    tickSub c.tickBits (sampleClock c nowMs) (sampleClock c startMs) = nowMs - startMs) ∧
  tickSub 16 0x0010 0xFFF0 = 32

/-! ## The control commands -/

/-- R93: NOP, word 0x0000, changes no register but `fs_consumed`, which becomes 0; it never times out the FS; the
outputs follow the step's NOW. -/
def Obligations.NopHoldsEveryRegister : Prop :=
  encode .nop = 0x0000#16 ∧
  (∀ s : State, exec .nop s = .next { s with fsConsumed := false }) ∧
  ∀ (s : State) (nowMs : Nat), ∃ t, applyEvent (.command 0x0000#16 nowMs) s = .next t ∧
    t.sameRegisters { s with fsConsumed := false } ∧
    presented t = outputs { s with fsConsumed := false } (nowMs % 2 ^ s.cfg.tickBits)

/-- R94: START, word 0x6000, arms the FS with NOW and clears the CK from any state; the fault bits are kept; the
flags it names become 0. -/
def Obligations.StartArmsAndClears : Prop :=
  encode .start = 0x6000#16 ∧
  ∀ s : State, ∃ t, exec .start s = .next t ∧
    t = { s with
      fsConsumed := false
      fsTStart := s.now
      fsState := .hunt
      ckSum := 0x008F#16
      ckCount := 0
      ckExp := 0x0000#16 } ∧
    (presented t).fsSyncOk = false ∧ (presented t).fsSyncTimeout = false ∧
    (presented t).ckDone = false ∧ (presented t).ckMatch = false ∧ (presented t).ckMismatch = false ∧
    ∃ a b, exec .fsArm s = .next a ∧ exec .ckInit a = .next b ∧ t.sameFs b ∧ t.sameCk b

/-- R95: for every state and sample, START agrees on every register with FS_ARM followed by CK_INIT at any sample, and
CK_INIT leaves the FS registers that FS_ARM wrote, FS_ARM the CK registers. -/
def Obligations.StartIsArmThenClear : Prop :=
  ∀ (s : State) (t t' : Nat), ∃ a b c,
    applyEvent (.command 0x6000#16 t) s = .next a ∧
    applyEvent (.command 0x1000#16 t) s = .next b ∧
    applyEvent (.command 0x4000#16 t') b = .next c ∧
    a.sameRegisters c ∧ b.sameFs c ∧ s.sameCk b

/-! ## The frame synchronizer -/

/-- R66: FS_ARM, word 0x1000, sets `fs_t_start` to NOW and `fs_state` to HUNT from every state, and the FS flags are
those of the new state; with a budget of 0 it is armed already expired and the first poll times out. -/
def Obligations.FsArmArmsFromEveryState : Prop :=
  encode .fsArm = 0x1000#16 ∧
  ∀ s : State, ∃ t, exec .fsArm s = .next t ∧
    t = { s with fsConsumed := false, fsTStart := s.now, fsState := .hunt } ∧
    (presented t).fsElapsed = 0 ∧ (presented t).fsSyncOk = false ∧ (presented t).fsSyncTimeout = false ∧
    (presented t).fsDeadlineExpired = decide (s.cfg.budgetMs ≤ 0) ∧
    (s.cfg.budgetMs = 0 → ∃ u, exec .fsPoll t = .next u ∧ u.fsState = .timeout)

/-- R60, R70: FS_POLL, word 0x2000, in HUNT or GOT42 moves to TIMEOUT when the elapsed time is at least the budget,
and changes nothing otherwise; `fs_t_start` is kept. -/
def Obligations.FsPollTimesOutAtTheBudget : Prop :=
  encode .fsPoll = 0x2000#16 ∧
  (∀ s : State, (s.fsState = .hunt ∨ s.fsState = .got42) →
    s.cfg.budgetMs ≤ tickSub s.cfg.tickBits s.now s.fsTStart →
    ∃ t, exec .fsPoll s = .next t ∧ t = { s with fsConsumed := false, fsState := .timeout } ∧
      (presented t).fsSyncTimeout = true) ∧
  ∀ s : State, ¬((s.fsState = .hunt ∨ s.fsState = .got42) ∧
      s.cfg.budgetMs ≤ tickSub s.cfg.tickBits s.now s.fsTStart) →
    exec .fsPoll s = .next { s with fsConsumed := false }

/-- R71: in IDLE, SYNCED and TIMEOUT both polls change no FS register (`fs_consumed` is 0, as in every step that takes
no byte) and take no byte, at every NOW. -/
def Obligations.PollsOutsideTheHuntDoNothing : Prop :=
  ∀ (s : State) (b : Byte), (s.fsState = .idle ∨ s.fsState = .synced ∨ s.fsState = .timeout) →
    exec .fsPoll s = .next { s with fsConsumed := false } ∧
    exec (.fsPollByte b) s = .next { s with fsConsumed := false }

/-- R61, R62, R74, R76: FS_POLL_BYTE, word `0x30 ++ b`: the state test, then the deadline, then the byte, which
is taken, moves the detector and on sync re-arms the deadline under PER_PHASE. -/
def Obligations.FsPollByteTestsDeadlineThenTakesTheByte : Prop :=
  ∀ (s : State) (b : Byte),
    encode (.fsPollByte b) = 0x30#8 ++ b ∧
    (¬(s.fsState = .hunt ∨ s.fsState = .got42) →
      exec (.fsPollByte b) s = .next { s with fsConsumed := false }) ∧
    ((s.fsState = .hunt ∨ s.fsState = .got42) →
      s.cfg.budgetMs ≤ tickSub s.cfg.tickBits s.now s.fsTStart →
      ∃ t, exec (.fsPollByte b) s = .next t ∧
        t = { s with fsConsumed := false, fsState := .timeout } ∧ (presented t).fsSyncTimeout = true) ∧
    ((s.fsState = .hunt ∨ s.fsState = .got42) →
      tickSub s.cfg.tickBits s.now s.fsTStart < s.cfg.budgetMs →
      ∃ t, exec (.fsPollByte b) s = .next t ∧
        t = { s with
          fsConsumed := true
          fsState :=
            if s.fsState = .got42 ∧ b = 0x4D#8 then .synced
            else if b = 0x42#8 ∧ (s.fsState = .hunt ∨ s.cfg.resyncPolicy = .sliding) then .got42
            else .hunt
          fsTStart :=
            if (s.fsState = .got42 ∧ b = 0x4D#8) ∧ s.cfg.deadlinePolicy = .perPhase then s.now
            else s.fsTStart } ∧
        ((presented t).fsSyncOk = true ↔ s.fsState = .got42 ∧ b = 0x4D#8))

/-- R61: the SLIDING table, cell by cell, for a byte that is consumed. -/
def Obligations.SlidingDetectorTable : Prop :=
  ∀ (s : State) (b : Byte), s.cfg.resyncPolicy = .sliding →
    (s.fsState = .hunt ∨ s.fsState = .got42) →
    tickSub s.cfg.tickBits s.now s.fsTStart < s.cfg.budgetMs →
    ∃ t, exec (.fsPollByte b) s = .next t ∧ t.fsConsumed = true ∧
      (s.fsState = .hunt → b = 0x42#8 → t.fsState = .got42) ∧
      (s.fsState = .hunt → b = 0x4D#8 → t.fsState = .hunt) ∧
      (s.fsState = .hunt → b ≠ 0x42#8 → b ≠ 0x4D#8 → t.fsState = .hunt) ∧
      (s.fsState = .got42 → b = 0x42#8 → t.fsState = .got42) ∧
      (s.fsState = .got42 → b = 0x4D#8 → t.fsState = .synced) ∧
      (s.fsState = .got42 → b ≠ 0x42#8 → b ≠ 0x4D#8 → t.fsState = .hunt)

/-- R62: the STRICT table, cell by cell, for a byte that is consumed; the only difference from SLIDING is the cell
GOT42 with 0x42. -/
def Obligations.StrictDetectorTable : Prop :=
  (∀ (s : State) (b : Byte), s.cfg.resyncPolicy = .strict →
    (s.fsState = .hunt ∨ s.fsState = .got42) →
    tickSub s.cfg.tickBits s.now s.fsTStart < s.cfg.budgetMs →
    ∃ t, exec (.fsPollByte b) s = .next t ∧ t.fsConsumed = true ∧
      (s.fsState = .hunt → b = 0x42#8 → t.fsState = .got42) ∧
      (s.fsState = .hunt → b = 0x4D#8 → t.fsState = .hunt) ∧
      (s.fsState = .hunt → b ≠ 0x42#8 → b ≠ 0x4D#8 → t.fsState = .hunt) ∧
      (s.fsState = .got42 → b = 0x42#8 → t.fsState = .hunt) ∧
      (s.fsState = .got42 → b = 0x4D#8 → t.fsState = .synced) ∧
      (s.fsState = .got42 → b ≠ 0x42#8 → b ≠ 0x4D#8 → t.fsState = .hunt)) ∧
  ∀ (st : FsState) (b : Byte), (st = .hunt ∨ st = .got42) → ¬(st = .got42 ∧ b = 0x42#8) →
    detectorNext .strict st b = detectorNext .sliding st b

/-- R75: a byte offered at an expired deadline is not consumed, even one that would complete the marker. -/
def Obligations.DeadlineIsTestedBeforeTheByte : Prop :=
  ∀ (s : State) (b : Byte), (s.fsState = .hunt ∨ s.fsState = .got42) →
    s.cfg.budgetMs ≤ tickSub s.cfg.tickBits s.now s.fsTStart →
    ∃ t, exec (.fsPollByte b) s = .next t ∧ t.fsState = .timeout ∧ t.fsConsumed = false ∧
      t.fsTStart = s.fsTStart

/-- R76: the poll that enters SYNCED writes `fs_t_start` with NOW under PER_PHASE and keeps it under SHARED, and
`fs_deadline_expired` in SYNCED counts from there. -/
def Obligations.SyncRearmsTheDeadlineOnlyPerPhase : Prop :=
  ∀ s : State, s.fsState = .got42 →
    tickSub s.cfg.tickBits s.now s.fsTStart < s.cfg.budgetMs →
    ∃ t, exec (.fsPollByte 0x4D#8) s = .next t ∧ t.fsState = .synced ∧
      (s.cfg.deadlinePolicy = .perPhase → t.fsTStart = s.now) ∧
      (s.cfg.deadlinePolicy = .shared → t.fsTStart = s.fsTStart) ∧
      ∀ later : Nat, (outputs t later).fsDeadlineExpired =
        decide (s.cfg.budgetMs ≤ tickSub s.cfg.tickBits later
          (match s.cfg.deadlinePolicy with | .perPhase => s.now | .shared => s.fsTStart))

/-- R78: after a step `fs_consumed` is 1 exactly when the step was a legal FS_POLL_BYTE that found the FS in HUNT or
GOT42 and the deadline not expired. -/
def Obligations.ConsumedExactlyWhenAByteWasTaken : Prop :=
  ∀ (s t : State) (e : HostEvent) (rest : List HostEvent),
    s.inbox = e :: rest → step s = .next t →
    (t.fsConsumed = true ↔ ∃ (w : Word) (nowMs : Nat), e = .command w nowMs ∧
      w.extractLsb' 12 4 = 0x3#4 ∧ w.extractLsb' 8 4 = 0#4 ∧
      (s.fsState = .hunt ∨ s.fsState = .got42) ∧
      tickSub s.cfg.tickBits (nowMs % 2 ^ s.cfg.tickBits) s.fsTStart < s.cfg.budgetMs)

/-- R69: from IDLE, SYNCED or TIMEOUT the FS state changes only in a step that applies an FS_ARM, a START or a reset,
and a step that arms leads to HUNT. -/
def Obligations.OnlyAnArmOrResetLeavesIdleSyncedTimeout : Prop :=
  (∀ (s t : State) (e : HostEvent) (rest : List HostEvent),
    s.inbox = e :: rest → (s.fsState = .idle ∨ s.fsState = .synced ∨ s.fsState = .timeout) →
    step s = .next t → t.fsState ≠ s.fsState →
    e = .reset ∨ ∃ nowMs, e = .command 0x1000#16 nowMs ∨ e = .command 0x6000#16 nowMs) ∧
  ∀ s : State, ∃ a b, exec .fsArm s = .next a ∧ exec .start s = .next b ∧
    a.fsState = .hunt ∧ b.fsState = .hunt

/-- R72: a poll that finds the deadline passed in HUNT or GOT42 moves to TIMEOUT, and no later input but an arm or a
reset leaves TIMEOUT, whatever clock counts come. -/
def Obligations.TimeoutHoldsUntilTheNextArm : Prop :=
  (∀ (s : State) (b : Byte), (s.fsState = .hunt ∨ s.fsState = .got42) →
    s.cfg.budgetMs ≤ tickSub s.cfg.tickBits s.now s.fsTStart →
    ∃ t u, exec .fsPoll s = .next t ∧ exec (.fsPollByte b) s = .next u ∧
      t.fsState = .timeout ∧ u.fsState = .timeout) ∧
  ∀ (s : State) (es : List HostEvent), s.fsState = .timeout → (∀ e ∈ es, armsOrResets e = false) →
    ∃ t, applyEvents es s = .next t ∧ t.fsState = .timeout

/-- R73: with a budget of 0 every poll of an armed FS moves to TIMEOUT and takes no byte, and no inputs lead an FS that
is not in SYNCED into SYNCED. -/
def Obligations.ZeroBudgetNeverSyncs : Prop :=
  (∀ (s : State) (b : Byte), s.cfg.budgetMs = 0 → (s.fsState = .hunt ∨ s.fsState = .got42) →
    ∃ t u, exec .fsPoll s = .next t ∧ exec (.fsPollByte b) s = .next u ∧
      t.fsState = .timeout ∧ u.fsState = .timeout ∧ t.fsConsumed = false ∧ u.fsConsumed = false) ∧
  ∀ (s : State) (es : List HostEvent), s.cfg.budgetMs = 0 → s.fsState ≠ .synced →
    ∃ t, applyEvents es s = .next t ∧ t.fsState ≠ .synced

/-- R64: under SLIDING, after an arm and any inputs but arms and resets, with `c` the bytes the FS consumed since the
arm: it is in SYNCED exactly when 0x42 0x4D occurs in `c`; it then stopped consuming at the first occurrence; and in
HUNT or GOT42, GOT42 holds exactly when the last byte of `c` is 0x42. -/
def Obligations.SlidingFindsTheFirstMarker : Prop :=
  ∀ (s : State) (arm : Instr) (nowMs : Nat) (es : List HostEvent),
    s.cfg.resyncPolicy = .sliding → (arm = .fsArm ∨ arm = .start) →
    (∀ e ∈ es, armsOrResets e = false) →
    ∃ s0 t, applyEvent (commandAt nowMs arm) s = .next s0 ∧ applyEvents es s0 = .next t ∧
      (t.fsState = .synced ↔ [0x42#8, 0x4D#8] <:+: consumedBytes es s0) ∧
      (t.fsState = .synced → ∃ before, consumedBytes es s0 = before ++ [0x42#8, 0x4D#8] ∧
        ¬[0x42#8, 0x4D#8] <:+: before ++ [0x42#8]) ∧
      ((t.fsState = .hunt ∨ t.fsState = .got42) →
        (t.fsState = .got42 ↔ (consumedBytes es s0).getLast? = some 0x42#8))

/-- R65: under STRICT, a run of `k` bytes 0x42 consumed from HUNT and followed by a consumed 0x4D reaches SYNCED
exactly when `k` is odd, and HUNT when `k` is even. -/
def Obligations.StrictSyncsExactlyOnOddRuns : Prop :=
  ∀ (s t u : State) (es : List HostEvent) (nowMs k : Nat),
    s.cfg.resyncPolicy = .strict → s.fsState = .hunt → 1 ≤ k →
    (∀ e ∈ es, armsOrResets e = false) →
    applyEvents es s = .next t → consumedBytes es s = List.replicate k 0x42#8 →
    applyEvent (commandAt nowMs (.fsPollByte 0x4D#8)) t = .next u → u.fsConsumed = true →
    (u.fsState = .synced ↔ k % 2 = 1) ∧ (k % 2 = 0 → u.fsState = .hunt)

/-- R34, R35, R77, R122: the polling loop (as log entry 9 writes it) loses no byte and keeps every untaken one: it ends in the state
its polls lead to, and the bytes consumed in the steps of these polls that set `fs_consumed`, followed by the stream it leaves, are
the stream it was given, however it ends: synced, in TIMEOUT or still hunting. A sync reached from HUNT consumed the marker last, and
under SLIDING it is the first marker, so the stream left to the reader begins right after it. -/
def Obligations.HuntLosesNoByteAndStopsAfterTheMarker : Prop :=
  ∀ (turns : List PollTurn) (s : State) (stream : List Byte),
    ∃ t rest, huntLoop turns s stream = .next (t, rest) ∧
      applyEvents (huntInputs turns s stream) s = .next t ∧
      stream = consumedBytes (huntInputs turns s stream) s ++ rest ∧
      (s.fsState = .hunt → t.fsState = .synced →
        ∃ before, consumedBytes (huntInputs turns s stream) s = before ++ [0x42#8, 0x4D#8] ∧
          (s.cfg.resyncPolicy = .sliding → ¬[0x42#8, 0x4D#8] <:+: before ++ [0x42#8]))

/-- R121: polls spaced below `2^TICK_BITS - BUDGET_MS` in true time never miss the deadline by a wrap: once a poll came at
or after the true deadline the hunt is over, and it ends in TIMEOUT only if one did. -/
def Obligations.SpacedPollsNeverMissTheDeadline : Prop :=
  ∀ (s : State) (armMs : Nat) (polls : List (Nat × Option Byte)),
    s.cfg.wf → hunting s.fsState = true → s.fsTStart = sampleClock s.cfg armMs →
    pollsWithinWrap s.cfg armMs (polls.map Prod.fst) = true →
    ∃ t, applyEvents (polls.map fun p => commandAt p.1 (pollFor p.2)) s = .next t ∧
      ((∃ p ∈ polls, armMs + s.cfg.budgetMs ≤ p.1) → hunting t.fsState = false) ∧
      (t.fsState = .timeout → ∃ p ∈ polls, armMs + s.cfg.budgetMs ≤ p.1)

/-- R112: a host that suspends and then issues one poll gets the same registers as one that polled all along, provided no
byte arrived and no tick wrap happened in between. -/
def Obligations.SuspendedHostGetsTheSameResult : Prop :=
  ∀ (s : State) (armMs nowMs : Nat) (earlier : List Nat),
    s.fsTStart = sampleClock s.cfg armMs → nowMs - armMs < 2 ^ s.cfg.tickBits → armMs ≤ nowMs →
    (∀ x ∈ earlier, armMs ≤ x ∧ x ≤ nowMs) →
    ∃ a b,
      applyEvents (earlier.map (commandAt · .fsPoll) ++ [commandAt nowMs .fsPoll]) s = .next a ∧
      applyEvent (commandAt nowMs .fsPoll) s = .next b ∧ a.sameRegisters b

/-- R118: a NOW from before `fs_t_start` makes the elapsed time wrap to a large value, and the next poll times out, for any
step back of at most `2^TICK_BITS - BUDGET_MS`. -/
def Obligations.StaleClockTimesOut : Prop :=
  ∀ (s : State) (armMs back : Nat) (b : Option Byte),
    hunting s.fsState = true → s.fsTStart = sampleClock s.cfg armMs →
    0 < back → back ≤ armMs → back + s.cfg.budgetMs ≤ 2 ^ s.cfg.tickBits →
    ∃ t, applyEvent (commandAt (armMs - back) (pollFor b)) s = .next t ∧
      fsElapsed t t.now = 2 ^ s.cfg.tickBits - back ∧ t.fsState = .timeout ∧ t.fsConsumed = false

/-- R25, R118: while the host's clock counts do not decrease and stay less than `2^TICK_BITS` after the arm, and no input arms
or resets, `fs_elapsed` is the true time since the arm, under SHARED or once the hunt is over. -/
def Obligations.ElapsedIsTrueUnderAMonotoneClock : Prop :=
  ∀ (s : State) (armMs : Nat) (es : List HostEvent),
    s.fsTStart = sampleClock s.cfg armMs → s.now = sampleClock s.cfg armMs →
    (s.cfg.deadlinePolicy = .shared ∨ hunting s.fsState = false) →
    (∀ e ∈ es, armsOrResets e = false) → clockMonotone armMs es = true →
    lastClock armMs es - armMs < 2 ^ s.cfg.tickBits →
    ∃ t, applyEvents es s = .next t ∧ (presented t).fsElapsed = lastClock armMs es - armMs

/-! ## The checksum accumulator -/

/-- R84: CK_INIT, word 0x4000, clears the accumulator from any state, mid-frame included; the verdict flags become 0;
the FS registers and the fault bits are kept. -/
def Obligations.CkInitClearsTheAccumulator : Prop :=
  encode .ckInit = 0x4000#16 ∧
  ∀ s : State, ∃ t, exec .ckInit s = .next t ∧
    t = { s with fsConsumed := false, ckSum := 0x008F#16, ckCount := 0, ckExp := 0x0000#16 } ∧
    (presented t).ckDone = false ∧ (presented t).ckMatch = false ∧ (presented t).ckMismatch = false

/-- R82, R85: CK_BYTE, word `0x50 ++ b`, by the byte's position: 0 to 27 added modulo 65536, 28 and 29 the high and the
low byte of `ck_exp`, 30 an overrun; when the count becomes 30 exactly one verdict flag is 1. -/
def Obligations.CkByteActsByPosition : Prop :=
  ∀ (s : State) (b : Byte),
    encode (.ckByte b) = 0x50#8 ++ b ∧
    (s.ckCount.val ≤ 27 → ∃ t, exec (.ckByte b) s = .next t ∧ t.ckCount.val = s.ckCount.val + 1 ∧
      t = { s with
        fsConsumed := false
        ckSum := BitVec.ofNat 16 ((s.ckSum.toNat + b.toNat) % 65536)
        ckCount := t.ckCount }) ∧
    (s.ckCount = 28 → exec (.ckByte b) s = .next { s with
      fsConsumed := false
      ckExp := b ++ s.ckExp.extractLsb' 0 8
      ckCount := 29 }) ∧
    (s.ckCount = 29 → ∃ t, exec (.ckByte b) s = .next t ∧
      t = { s with fsConsumed := false, ckExp := s.ckExp.extractLsb' 8 8 ++ b, ckCount := 30 } ∧
      (presented t).ckDone = true ∧ (presented t).ckMismatch = !(presented t).ckMatch) ∧
    (s.ckCount = 30 → exec (.ckByte b) s = .next { s with
      fsConsumed := false
      fault := s.fault ||| 0b10#2 })

/-- R87: a CK_BYTE with `ck_count = 30` sets `fault[1]`, drops the byte and leaves the accumulator, so the verdict of the
completed frame stands. -/
def Obligations.OverrunDropsTheByteAndKeepsTheVerdict : Prop :=
  ∀ (s : State) (b : Byte), s.ckCount = 30 →
    ∃ t, exec (.ckByte b) s = .next t ∧ t.fault = s.fault ||| 0b10#2 ∧ t.sameCk s ∧
      ckMatch t = ckMatch s ∧ ckMismatch t = ckMismatch s

/-- R88: after a clear and exactly 30 CK_BYTEs, with any inputs between them that do not touch the CK, the count is 30, `ck_sum` is
the document's `actual`, `ck_exp` its `expected`, and `ck_match` is 1 exactly when they are equal. -/
def Obligations.ThirtyBytesGiveTheValidatorsVerdict : Prop :=
  ∀ (s : State) (clear : Instr) (nowMs : Nat) (es : List HostEvent) (r : List Byte) (hi lo : Byte),
    (clear = .ckInit ∨ clear = .start) → (∀ e ∈ es, clearsOrResets e = false) →
    r.length = 28 → es.filterMap fedByte = r ++ [hi, lo] →
    ∃ t, applyEvents (commandAt nowMs clear :: es) s = .next t ∧ t.ckCount = 30 ∧
      t.ckSum = BitVec.ofNat 16 ((0x8F + (r.map BitVec.toNat).sum) % 65536) ∧
      t.ckExp = hi ++ lo ∧ (ckMatch t = true ↔ t.ckSum = t.ckExp) ∧
      (ckMismatch t = true ↔ t.ckSum ≠ t.ckExp) ∧ t.fault &&& 0b10#2 = s.fault &&& 0b10#2

/-- R92: fed byte by byte, `ck_count` at any moment is the number of frame bytes received since the clear. -/
def Obligations.CountIsTheNumberOfBytesReceived : Prop :=
  ∀ (s : State) (clear : Instr) (nowMs : Nat) (es : List HostEvent),
    (clear = .ckInit ∨ clear = .start) → (∀ e ∈ es, clearsOrResets e = false) →
    (es.filterMap fedByte).length ≤ 30 →
    ∃ t, applyEvents (commandAt nowMs clear :: es) s = .next t ∧
      t.ckCount.val = (es.filterMap fedByte).length

/-- R89: the verdict depends on nothing but the CK commands since the last clear: two lists of inputs with the same CK commands, and
anything else at any time between them, end with the same CK and the same verdict, from any two states if the first CK command is a
clear, and from states that agree on the CK if it is not. -/
def Obligations.VerdictDependsOnlyOnTheCkCommands : Prop :=
  ∀ (s s' : State) (es es' : List HostEvent),
    (s.sameCk s' ∨ (es.filterMap ckEvent).head? = some .clear) →
    (∀ e ∈ es, isReset e = false) → (∀ e ∈ es', isReset e = false) →
    es.filterMap ckEvent = es'.filterMap ckEvent →
    ∃ t t', applyEvents es s = .next t ∧ applyEvents es' s' = .next t' ∧ t.sameCk t' ∧
      ckMatch t = ckMatch t' ∧ ckMismatch t = ckMismatch t'

/-- R90: flipping any one bit of any byte of a frame that matched, a checksum byte included, gives a mismatch. -/
def Obligations.SingleBitFlipMismatches : Prop :=
  ∀ (s : State) (nowMs : Nat) (r : List Byte) (k j : Nat) (b : Byte),
    r.length = 30 → r[k]? = some b → j < 8 →
    ∃ t u, applyEvents (frameEvents nowMs r) s = .next t ∧
      applyEvents (frameEvents nowMs (r.set k (b ^^^ (1#8 <<< j)))) s = .next u ∧
      (ckMatch t = true → ckMismatch u = true)

/-- R97: a completed frame's verdict holds until the next clear or reset; an overrun byte does not change it. -/
def Obligations.VerdictHoldsUntilTheNextClear : Prop :=
  ∀ (s : State) (es : List HostEvent), s.ckCount = 30 → (∀ e ∈ es, clearsOrResets e = false) →
    ∃ t, applyEvents es s = .next t ∧ t.sameCk s ∧ ckMatch t = ckMatch s ∧ ckMismatch t = ckMismatch s

/-! ## Faults -/

/-- R99, R101: a step's effect on `fault`, exactly: an illegal word sets bit 0, a CK_BYTE at `ck_count = 30` sets bit 1, a reset
clears both, and nothing else touches either. -/
def Obligations.FaultBitsAreRaisedExactly : Prop :=
  ∀ (s t : State) (e : HostEvent) (rest : List HostEvent),
    s.inbox = e :: rest → step s = .next t →
    t.fault = (match e with
      | .reset => 0b00#2
      | .command w _ =>
        if legal w = false then s.fault ||| 0b01#2
        else if w.extractLsb' 12 4 = 0x5#4 ∧ s.ckCount = 30 then s.fault ||| 0b10#2
        else s.fault)

/-- R21, R115: no inputs but a reset clear a fault bit, and a reset clears both. -/
def Obligations.FaultBitsAreSticky : Prop :=
  (∀ (s : State) (es : List HostEvent), (∀ e ∈ es, isReset e = false) →
    ∃ t, applyEvents es s = .next t ∧ s.fault &&& t.fault = s.fault) ∧
  ∀ s : State, ∃ t, applyEvent .reset s = .next t ∧ t.fault = 0b00#2

/-- R99, R124: legal commands whose host keeps the duty of R124 (no 31st CK_BYTE after a clear) raise no fault, whatever the
bytes, the clock counts and the order of the commands. -/
def Obligations.DutifulHostRaisesNoFault : Prop :=
  ∀ (s : State) (cmds : List (Nat × Instr)),
    feedsWithinFrame s.ckCount.val (cmds.map Prod.snd) = true →
    ∃ t, applyEvents (cmds.map fun c => commandAt c.1 c.2) s = .next t ∧ t.fault = s.fault ∧
      (s.faultFree → t.faultFree)

/-! ## Frames -/

/-- R14, the column "written by": what a command leaves unchanged. `fs_state` is written by FS_ARM, START and the polls; `fs_t_start`
by FS_ARM, START and, under PER_PHASE and on entering SYNCED only, FS_POLL_BYTE; the CK registers by CK_INIT, START and CK_BYTE;
`fault` by CK_BYTE on overrun. That no command writes the model's own fields either is no word of R14: the configuration (R22; log
entry 1), the waiting inputs (log entry 2) and the clock sample (log entry 3). -/
def Obligations.CommandsWriteOnlyTheirRegisters : Prop :=
  ∀ (i : Instr) (s : State), ∃ t, exec i s = .next t ∧
    t.cfg = s.cfg ∧ t.now = s.now ∧ t.inbox = s.inbox ∧
    ((i = .nop ∨ i = .ckInit ∨ ∃ b, i = .ckByte b) → t.fsState = s.fsState) ∧
    ((i = .nop ∨ i = .fsPoll ∨ i = .ckInit ∨ (∃ b, i = .ckByte b) ∨
      ((∃ b, i = .fsPollByte b) ∧
        (s.cfg.deadlinePolicy = .shared ∨ t.fsState ≠ .synced ∨ s.fsState = .synced))) →
      t.fsTStart = s.fsTStart) ∧
    ((∀ b, i ≠ .fsPollByte b) → t.fsConsumed = false) ∧
    ((i = .nop ∨ i = .fsArm ∨ i = .fsPoll ∨ ∃ b, i = .fsPollByte b) → t.sameCk s) ∧
    (¬((∃ b, i = .ckByte b) ∧ s.ckCount = 30) → t.fault = s.fault)

/-- R56: NOP, CK_INIT, CK_BYTE and illegal words ignore NOW for state. -/
def Obligations.IdleCkAndIllegalWordsIgnoreNow : Prop :=
  (∀ (s : State) (i : Instr) (n : Nat), (i = .nop ∨ i = .ckInit ∨ ∃ b, i = .ckByte b) →
    ∃ t u, exec i s = .next t ∧ exec i { s with now := n } = .next u ∧ t.sameRegisters u) ∧
  ∀ (s : State) (w : Word) (n m : Nat), legal w = false →
    ∃ t u, applyEvent (.command w n) s = .next t ∧ applyEvent (.command w m) s = .next u ∧
      t.sameRegisters u

/-- D25: the FS and the CK share no register: what a command does to the FS registers is the same whatever the CK registers
and the faults are, and what it does to the CK registers is the same whatever the FS registers are. -/
def Obligations.UnitsShareNoRegister : Prop :=
  ∀ (i : Instr) (s s' : State), ∃ t t', exec i s = .next t ∧ exec i s' = .next t' ∧
    (s.cfg = s'.cfg → s.now = s'.now → s.fsState = s'.fsState → s.fsTStart = s'.fsTStart → t.sameFs t') ∧
    (s.sameCk s' → t.sameCk t')

/-! ## Invariants -/

/-- R28, with the widths of R7 and R14: reset meets the invariant under every legal configuration, and so does State.reset,
whose TICK_BITS and NOW are the model's choice (log entries 1 and 3). -/
def Obligations.ResetMeetsTheInvariants : Prop :=
  (∀ c : Config, c.wf → (State.resetFor c).inv ∧ (State.resetFor c).sumBounded) ∧ State.reset.inv

/-- R28, with the widths of R7 and R14: every step keeps the invariant, from every state that meets it: the FS state is one of the
five, the count is at most 30, `ck_exp` holds only written bits, and every time value fits in `TICK_BITS` bits. -/
def Obligations.EveryStepKeepsTheInvariant : Prop :=
  ∀ s t : State, s.inv → step s = .next t → t.inv

/-- R29: the sum of one frame never wraps: every step keeps `ck_sum` within the seed and 255 for each byte summed, at most 7283, and
so the addition of a byte is exact. -/
def Obligations.SumNeverWrapsInAFrame : Prop :=
  (∀ s t : State, s.sumBounded → step s = .next t → t.sumBounded) ∧
  (∀ s : State, s.sumBounded → s.ckSum.toNat ≤ 7283) ∧
  ∀ (s : State) (b : Byte), s.sumBounded → s.ckCount.val ≤ 27 →
    ∃ t, exec (.ckByte b) s = .next t ∧ t.ckSum.toNat = s.ckSum.toNat + b.toNat

/-! ## The frame attempt -/

/-- R117 and the document's round-trip property: from any state, a host that starts an attempt (as log entry 9 writes it), offers the
marker within the budget and feeds 28 bytes with their correct checksum ends SYNCED with a match, reads the result "valid", leaves the
rest of the stream and raises no fault, under both policies. -/
def Obligations.ValidFrameIsAccepted : Prop :=
  ∀ (s : State) (startMs t1 t2 : Nat) (readTimes : List Nat) (r rest : List Byte) (hi lo : Byte),
    s.cfg.wf → startMs ≤ t1 → t1 < startMs + s.cfg.budgetMs →
    startMs ≤ t2 → t2 < startMs + s.cfg.budgetMs →
    readTimes.length = 30 → r.length = 28 →
    hi ++ lo = BitVec.ofNat 16 ((0x8F + (r.map BitVec.toNat).sum) % 65536) →
    ∃ t, attempt startMs [⟨t1, true⟩, ⟨t2, true⟩] readTimes s
        ([0x42#8, 0x4D#8] ++ r ++ [hi, lo] ++ rest) = .next (t, rest) ∧
      t.fsState = .synced ∧ ckMatch t = true ∧ t.ckSum = hi ++ lo ∧
      readResult (presented t) = .valid ∧ t.fault = s.fault

/-- R79, R96: an attempt reads as SyncTimeout exactly when the FS is in TIMEOUT, so a SYNCED attempt with a shortfall of bytes is never
one; with all 30 bytes it reads as valid or as a mismatch carrying both values. That the shortfall reads as "incomplete" with its count
is the model's choice (log entry 9): the ReadTimeout that carries this count is the reader's. -/
def Obligations.ResultsNameTheirPhase : Prop :=
  ∀ s : State,
    (readResult (presented s) = .syncTimeout ↔ s.fsState = .timeout) ∧
    (s.fsState = .synced → s.ckCount ≠ 30 → readResult (presented s) = .incomplete s.ckCount.val) ∧
    (s.fsState = .synced → s.ckCount = 30 → s.ckSum = s.ckExp → readResult (presented s) = .valid) ∧
    (s.fsState = .synced → s.ckCount = 30 → s.ckSum ≠ s.ckExp →
      readResult (presented s) = .checksumMismatch s.ckExp s.ckSum)
end

