-- ==== Sys2Proof/Laws/Assembler.lean ====
section
/-! SUPPORT. What reading a `decimal` (R58) does with one digit and at the space after the digits. -/

namespace Sys2Proof.Machine

/-- A digit appends itself to the value in base 10. -/
theorem readDecimal_digit (seen : Bool) (value : Nat) {d : Nat} (hd : d < 10) (cs : List Char) :
    readDecimal seen value (d.digitChar :: cs) = readDecimal true (10 * value + d) cs := by
  interval_cases d <;> rfl

/-- At the space, the value stands exactly if a digit was read. -/
theorem readDecimal_space (seen : Bool) (value : Nat) (cs : List Char) :
    readDecimal seen value (' ' :: cs) = if seen then some (value, cs) else none := rfl

end Sys2Proof.Machine
end

