-- ==== Sys2Proof/Laws/State.lean ====
section
/-! SUPPORT. One lemma for each field of the state after each named update, true by unfolding once here. -/

namespace Sys2Proof.Machine

variable (s : State)

@[simp] theorem defaultConsumed_cfg : (defaultConsumed s).cfg = s.cfg := rfl
@[simp] theorem defaultConsumed_fsState : (defaultConsumed s).fsState = s.fsState := rfl
@[simp] theorem defaultConsumed_fsTStart : (defaultConsumed s).fsTStart = s.fsTStart := rfl
@[simp] theorem defaultConsumed_fsConsumed : (defaultConsumed s).fsConsumed = false := rfl
@[simp] theorem defaultConsumed_ckSum : (defaultConsumed s).ckSum = s.ckSum := rfl
@[simp] theorem defaultConsumed_ckCount : (defaultConsumed s).ckCount = s.ckCount := rfl
@[simp] theorem defaultConsumed_ckExp : (defaultConsumed s).ckExp = s.ckExp := rfl
@[simp] theorem defaultConsumed_fault : (defaultConsumed s).fault = s.fault := rfl
@[simp] theorem defaultConsumed_now : (defaultConsumed s).now = s.now := rfl
@[simp] theorem defaultConsumed_inbox : (defaultConsumed s).inbox = s.inbox := rfl

@[simp] theorem takeFault_cfg (f : FaultBit) : (takeFault f s).cfg = s.cfg := rfl
@[simp] theorem takeFault_fsState (f : FaultBit) : (takeFault f s).fsState = s.fsState := rfl
@[simp] theorem takeFault_fsTStart (f : FaultBit) : (takeFault f s).fsTStart = s.fsTStart := rfl
@[simp] theorem takeFault_fsConsumed (f : FaultBit) : (takeFault f s).fsConsumed = false := rfl
@[simp] theorem takeFault_ckSum (f : FaultBit) : (takeFault f s).ckSum = s.ckSum := rfl
@[simp] theorem takeFault_ckCount (f : FaultBit) : (takeFault f s).ckCount = s.ckCount := rfl
@[simp] theorem takeFault_ckExp (f : FaultBit) : (takeFault f s).ckExp = s.ckExp := rfl
@[simp] theorem takeFault_fault (f : FaultBit) : (takeFault f s).fault = s.fault ||| faultMask f := rfl
@[simp] theorem takeFault_now (f : FaultBit) : (takeFault f s).now = s.now := rfl
@[simp] theorem takeFault_inbox (f : FaultBit) : (takeFault f s).inbox = s.inbox := rfl

@[simp] theorem armFs_cfg : (armFs s).cfg = s.cfg := rfl
@[simp] theorem armFs_fsState : (armFs s).fsState = .hunt := rfl
@[simp] theorem armFs_fsTStart : (armFs s).fsTStart = s.now := rfl
@[simp] theorem armFs_fsConsumed : (armFs s).fsConsumed = s.fsConsumed := rfl
@[simp] theorem armFs_ckSum : (armFs s).ckSum = s.ckSum := rfl
@[simp] theorem armFs_ckCount : (armFs s).ckCount = s.ckCount := rfl
@[simp] theorem armFs_ckExp : (armFs s).ckExp = s.ckExp := rfl
@[simp] theorem armFs_fault : (armFs s).fault = s.fault := rfl
@[simp] theorem armFs_now : (armFs s).now = s.now := rfl
@[simp] theorem armFs_inbox : (armFs s).inbox = s.inbox := rfl

@[simp] theorem timeOut_cfg : (timeOut s).cfg = s.cfg := rfl
@[simp] theorem timeOut_fsState : (timeOut s).fsState = .timeout := rfl
@[simp] theorem timeOut_fsTStart : (timeOut s).fsTStart = s.fsTStart := rfl
@[simp] theorem timeOut_fsConsumed : (timeOut s).fsConsumed = s.fsConsumed := rfl
@[simp] theorem timeOut_ckSum : (timeOut s).ckSum = s.ckSum := rfl
@[simp] theorem timeOut_ckCount : (timeOut s).ckCount = s.ckCount := rfl
@[simp] theorem timeOut_ckExp : (timeOut s).ckExp = s.ckExp := rfl
@[simp] theorem timeOut_fault : (timeOut s).fault = s.fault := rfl
@[simp] theorem timeOut_now : (timeOut s).now = s.now := rfl
@[simp] theorem timeOut_inbox : (timeOut s).inbox = s.inbox := rfl

@[simp] theorem clearCk_cfg : (clearCk s).cfg = s.cfg := rfl
@[simp] theorem clearCk_fsState : (clearCk s).fsState = s.fsState := rfl
@[simp] theorem clearCk_fsTStart : (clearCk s).fsTStart = s.fsTStart := rfl
@[simp] theorem clearCk_fsConsumed : (clearCk s).fsConsumed = s.fsConsumed := rfl
@[simp] theorem clearCk_ckSum : (clearCk s).ckSum = seed := rfl
@[simp] theorem clearCk_ckCount : (clearCk s).ckCount = 0 := rfl
@[simp] theorem clearCk_ckExp : (clearCk s).ckExp = 0x0000#16 := rfl
@[simp] theorem clearCk_fault : (clearCk s).fault = s.fault := rfl
@[simp] theorem clearCk_now : (clearCk s).now = s.now := rfl
@[simp] theorem clearCk_inbox : (clearCk s).inbox = s.inbox := rfl

@[simp] theorem acceptInput_cfg (rest : List HostEvent) : (acceptInput rest s).cfg = s.cfg := rfl
@[simp] theorem acceptInput_fsState (rest : List HostEvent) : (acceptInput rest s).fsState = s.fsState := rfl
@[simp] theorem acceptInput_fsTStart (rest : List HostEvent) : (acceptInput rest s).fsTStart = s.fsTStart := rfl
@[simp] theorem acceptInput_fsConsumed (rest : List HostEvent) : (acceptInput rest s).fsConsumed = s.fsConsumed := rfl
@[simp] theorem acceptInput_ckSum (rest : List HostEvent) : (acceptInput rest s).ckSum = s.ckSum := rfl
@[simp] theorem acceptInput_ckCount (rest : List HostEvent) : (acceptInput rest s).ckCount = s.ckCount := rfl
@[simp] theorem acceptInput_ckExp (rest : List HostEvent) : (acceptInput rest s).ckExp = s.ckExp := rfl
@[simp] theorem acceptInput_fault (rest : List HostEvent) : (acceptInput rest s).fault = s.fault := rfl
@[simp] theorem acceptInput_now (rest : List HostEvent) : (acceptInput rest s).now = s.now := rfl
@[simp] theorem acceptInput_inbox (rest : List HostEvent) : (acceptInput rest s).inbox = rest := rfl

@[simp] theorem sampleNow_cfg (nowMs : Nat) : (sampleNow nowMs s).cfg = s.cfg := rfl
@[simp] theorem sampleNow_fsState (nowMs : Nat) : (sampleNow nowMs s).fsState = s.fsState := rfl
@[simp] theorem sampleNow_fsTStart (nowMs : Nat) : (sampleNow nowMs s).fsTStart = s.fsTStart := rfl
@[simp] theorem sampleNow_fsConsumed (nowMs : Nat) : (sampleNow nowMs s).fsConsumed = s.fsConsumed := rfl
@[simp] theorem sampleNow_ckSum (nowMs : Nat) : (sampleNow nowMs s).ckSum = s.ckSum := rfl
@[simp] theorem sampleNow_ckCount (nowMs : Nat) : (sampleNow nowMs s).ckCount = s.ckCount := rfl
@[simp] theorem sampleNow_ckExp (nowMs : Nat) : (sampleNow nowMs s).ckExp = s.ckExp := rfl
@[simp] theorem sampleNow_fault (nowMs : Nat) : (sampleNow nowMs s).fault = s.fault := rfl
@[simp] theorem sampleNow_now (nowMs : Nat) : (sampleNow nowMs s).now = sampleClock s.cfg nowMs := rfl
@[simp] theorem sampleNow_inbox (nowMs : Nat) : (sampleNow nowMs s).inbox = s.inbox := rfl

@[simp] theorem resetStep_cfg : (resetStep s).cfg = s.cfg := rfl
@[simp] theorem resetStep_fsState : (resetStep s).fsState = .idle := rfl
@[simp] theorem resetStep_fsTStart : (resetStep s).fsTStart = 0 := rfl
@[simp] theorem resetStep_fsConsumed : (resetStep s).fsConsumed = false := rfl
@[simp] theorem resetStep_ckSum : (resetStep s).ckSum = 0x008F#16 := rfl
@[simp] theorem resetStep_ckCount : (resetStep s).ckCount = 0 := rfl
@[simp] theorem resetStep_ckExp : (resetStep s).ckExp = 0x0000#16 := rfl
@[simp] theorem resetStep_fault : (resetStep s).fault = 0b00#2 := rfl
@[simp] theorem resetStep_now : (resetStep s).now = s.now := rfl
@[simp] theorem resetStep_inbox : (resetStep s).inbox = s.inbox := rfl

@[simp] theorem sumByte_cfg (b : Byte) : (sumByte b s).cfg = s.cfg := rfl
@[simp] theorem sumByte_fsState (b : Byte) : (sumByte b s).fsState = s.fsState := rfl
@[simp] theorem sumByte_fsTStart (b : Byte) : (sumByte b s).fsTStart = s.fsTStart := rfl
@[simp] theorem sumByte_fsConsumed (b : Byte) : (sumByte b s).fsConsumed = s.fsConsumed := rfl
@[simp] theorem sumByte_ckSum (b : Byte) : (sumByte b s).ckSum = add16 s.ckSum (zext16 b) := rfl
@[simp] theorem sumByte_ckCount (b : Byte) : (sumByte b s).ckCount = s.ckCount + 1 := rfl
@[simp] theorem sumByte_ckExp (b : Byte) : (sumByte b s).ckExp = s.ckExp := rfl
@[simp] theorem sumByte_fault (b : Byte) : (sumByte b s).fault = s.fault := rfl
@[simp] theorem sumByte_now (b : Byte) : (sumByte b s).now = s.now := rfl
@[simp] theorem sumByte_inbox (b : Byte) : (sumByte b s).inbox = s.inbox := rfl

@[simp] theorem captureHigh_cfg (b : Byte) : (captureHigh b s).cfg = s.cfg := rfl
@[simp] theorem captureHigh_fsState (b : Byte) : (captureHigh b s).fsState = s.fsState := rfl
@[simp] theorem captureHigh_fsTStart (b : Byte) : (captureHigh b s).fsTStart = s.fsTStart := rfl
@[simp] theorem captureHigh_fsConsumed (b : Byte) : (captureHigh b s).fsConsumed = s.fsConsumed := rfl
@[simp] theorem captureHigh_ckSum (b : Byte) : (captureHigh b s).ckSum = s.ckSum := rfl
@[simp] theorem captureHigh_ckCount (b : Byte) : (captureHigh b s).ckCount = 29 := rfl
@[simp] theorem captureHigh_ckExp (b : Byte) : (captureHigh b s).ckExp = bigEndian16 b (lowByte s.ckExp) := rfl
@[simp] theorem captureHigh_fault (b : Byte) : (captureHigh b s).fault = s.fault := rfl
@[simp] theorem captureHigh_now (b : Byte) : (captureHigh b s).now = s.now := rfl
@[simp] theorem captureHigh_inbox (b : Byte) : (captureHigh b s).inbox = s.inbox := rfl

@[simp] theorem captureLow_cfg (b : Byte) : (captureLow b s).cfg = s.cfg := rfl
@[simp] theorem captureLow_fsState (b : Byte) : (captureLow b s).fsState = s.fsState := rfl
@[simp] theorem captureLow_fsTStart (b : Byte) : (captureLow b s).fsTStart = s.fsTStart := rfl
@[simp] theorem captureLow_fsConsumed (b : Byte) : (captureLow b s).fsConsumed = s.fsConsumed := rfl
@[simp] theorem captureLow_ckSum (b : Byte) : (captureLow b s).ckSum = s.ckSum := rfl
@[simp] theorem captureLow_ckCount (b : Byte) : (captureLow b s).ckCount = 30 := rfl
@[simp] theorem captureLow_ckExp (b : Byte) : (captureLow b s).ckExp = bigEndian16 (highByte s.ckExp) b := rfl
@[simp] theorem captureLow_fault (b : Byte) : (captureLow b s).fault = s.fault := rfl
@[simp] theorem captureLow_now (b : Byte) : (captureLow b s).now = s.now := rfl
@[simp] theorem captureLow_inbox (b : Byte) : (captureLow b s).inbox = s.inbox := rfl

@[simp] theorem illegalStep_eq : illegalStep s = takeFault .illegalCmd s := rfl

end Sys2Proof.Machine
end

