-- ==== Sys2Proof/Laws/Ops.lean ====
section
/-! SUPPORT. One lemma per shared operation that is not a plain update: the modular difference of R9, the detector of
R61 and R62, taking a byte (R74), and the constants of R8. -/

namespace Sys2Proof.Machine

theorem seed_eq : seed = 0x008F#16 := by decide

/-- The defining property of R9's `-_T`, over the integers. -/
theorem tickSub_cast (T a b : Nat) :
    ((tickSub T a b : Nat) : Int) = ((a : Int) - (b : Int)) % ((2 ^ T : Nat) : Int) := by
  have hpos : (0 : Int) < ((2 ^ T : Nat) : Int) := by exact_mod_cast Nat.two_pow_pos T
  exact Int.toNat_of_nonneg (Int.emod_nonneg _ hpos.ne')

theorem tickSub_lt (T a b : Nat) : tickSub T a b < 2 ^ T := by
  have hpos : (0 : Int) < ((2 ^ T : Nat) : Int) := by exact_mod_cast Nat.two_pow_pos T
  have h := tickSub_cast T a b
  have := Int.emod_lt_of_pos ((a : Int) - b) hpos
  omega

@[simp] theorem tickSub_self (T a : Nat) : tickSub T a a = 0 := by
  simp [tickSub]

/-- A byte moves the detector to HUNT, GOT42 or SYNCED; only GOT42 with the second marker byte reaches SYNCED, and
only the first marker byte reaches GOT42. -/
theorem detectorNext_cases (p : ResyncPolicy) (st : FsState) (b : Byte) (h : hunting st = true) :
    (detectorNext p st b = .synced ∧ st = .got42 ∧ b = magic1) ∨
      (detectorNext p st b = .got42 ∧ b = magic0 ∧ (st = .hunt ∨ p = .sliding)) ∨
      (detectorNext p st b = .hunt ∧ ¬(st = .got42 ∧ b = magic1) ∧
        (b = magic0 → st = .got42 ∧ p = .strict)) := by
  have hne : magic0 ≠ magic1 := by decide
  cases st <;> simp_all [hunting, detectorNext]
  · by_cases hb : b = magic0 <;> simp [hb]
  · by_cases h1 : b = magic1
    · simp [h1]
    · by_cases h0 : b = magic0
      · cases p <;> simp [h0, hne, afterRepeated42]
      · simp [h1, h0]

section ConsumeByte
variable (b : Byte) (s : State)

theorem rearmOnSync_fsTStart :
    (rearmOnSync s).fsTStart =
      if s.fsState = .synced ∧ s.cfg.deadlinePolicy = .perPhase then s.now else s.fsTStart := by
  unfold rearmOnSync; split <;> rfl

@[simp] theorem consumeByte_cfg : (consumeByte b s).cfg = s.cfg := by
  unfold consumeByte rearmOnSync; split <;> rfl
@[simp] theorem consumeByte_fsState :
    (consumeByte b s).fsState = detectorNext s.cfg.resyncPolicy s.fsState b := by
  unfold consumeByte rearmOnSync; split <;> rfl
theorem consumeByte_fsTStart :
    (consumeByte b s).fsTStart =
      if detectorNext s.cfg.resyncPolicy s.fsState b = .synced ∧ s.cfg.deadlinePolicy = .perPhase
      then s.now else s.fsTStart := by
  unfold consumeByte; rw [rearmOnSync_fsTStart]
@[simp] theorem consumeByte_fsConsumed : (consumeByte b s).fsConsumed = true := by
  unfold consumeByte rearmOnSync; split <;> rfl
@[simp] theorem consumeByte_ckSum : (consumeByte b s).ckSum = s.ckSum := by
  unfold consumeByte rearmOnSync; split <;> rfl
@[simp] theorem consumeByte_ckCount : (consumeByte b s).ckCount = s.ckCount := by
  unfold consumeByte rearmOnSync; split <;> rfl
@[simp] theorem consumeByte_ckExp : (consumeByte b s).ckExp = s.ckExp := by
  unfold consumeByte rearmOnSync; split <;> rfl
@[simp] theorem consumeByte_fault : (consumeByte b s).fault = s.fault := by
  unfold consumeByte rearmOnSync; split <;> rfl
@[simp] theorem consumeByte_now : (consumeByte b s).now = s.now := by
  unfold consumeByte rearmOnSync; split <;> rfl
@[simp] theorem consumeByte_inbox : (consumeByte b s).inbox = s.inbox := by
  unfold consumeByte rearmOnSync; split <;> rfl

end ConsumeByte

/-- The byte halves of a word (R37). -/
@[simp] theorem highByte_bigEndian16 (hi lo : Byte) : highByte (bigEndian16 hi lo) = hi := by
  ext i hi'
  have h : (hi ++ lo).getLsbD (8 + i) = hi[i] := by
    rw [BitVec.getLsbD_append]; simp [← BitVec.getLsbD_eq_getElem hi']
  simpa [highByte, bigEndian16] using h

@[simp] theorem lowByte_bigEndian16 (hi lo : Byte) : lowByte (bigEndian16 hi lo) = lo := by
  ext i hi'
  have h : (hi ++ lo).getLsbD i = lo[i] := by rw [BitVec.getLsbD_append]; simp [hi']
  simpa [lowByte, bigEndian16] using h

end Sys2Proof.Machine
end

