-- ==== Sys2Proof/Laws/Exec.lean ====
section
/-! SUPPORT. What a command, an input and a list of inputs can do, said once: the state each leads to, as a function.
No command has a second outcome (R11), so later proofs work with these functions and never unfold `step`. -/

namespace Sys2Proof.Machine

/-- The state after a command. -/
def afterCommand (i : Instr) (s : State) : State :=
  match i with
  | .nop => defaultConsumed s
  | .fsArm => armFs (defaultConsumed s)
  | .fsPoll =>
    if hunting s.fsState && expired s s.now then timeOut (defaultConsumed s) else defaultConsumed s
  | .fsPollByte b =>
    if hunting s.fsState then
      if expired s s.now then timeOut (defaultConsumed s) else consumeByte b (defaultConsumed s)
    else defaultConsumed s
  | .ckInit => clearCk (defaultConsumed s)
  | .ckByte b =>
    if s.ckCount ≤ 27 then sumByte b (defaultConsumed s)
    else if s.ckCount = 28 then captureHigh b (defaultConsumed s)
    else if s.ckCount = 29 then captureLow b (defaultConsumed s)
    else takeFault .ckOverrun s
  | .start => clearCk (armFs (defaultConsumed s))

theorem exec_eq_afterCommand (i : Instr) (s : State) : exec i s = .next (afterCommand i s) := by
  cases i with
  | fsPoll => simp only [exec, execFsPoll, afterCommand]; split <;> rfl
  | fsPollByte b => simp only [exec, execFsPollByte, afterCommand]; split <;> [split <;> rfl; rfl]
  | ckByte b =>
    simp only [exec, execCkByte, afterCommand]
    split
    · rfl
    · split
      · rfl
      · split <;> rfl
  | _ => rfl

/-- The state after one input. -/
def afterEvent (e : HostEvent) (s : State) : State :=
  match e with
  | .reset => resetStep s
  | .command w nowMs =>
    match decode w with
    | .ok i => afterCommand i (sampleNow nowMs s)
    | .error _ => illegalStep (sampleNow nowMs s)

/-- A step with an input waiting: the input leaves the inbox and has its effect (R11, R55). -/
theorem step_of_inbox {s : State} {e : HostEvent} {rest : List HostEvent}
    (h : s.inbox = e :: rest) : step s = .next (afterEvent e (acceptInput rest s)) := by
  cases e with
  | reset => simp only [step, h, afterEvent]
  | command w nowMs =>
    simp only [step, h, afterEvent]
    cases decode w with
    | error _ => rfl
    | ok i => exact exec_eq_afterCommand i _

theorem applyEvent_eq (e : HostEvent) (s : State) : applyEvent e s = .next (afterEvent e s) :=
  step_of_inbox rfl

/-- The state after a list of inputs. -/
def afterEvents : List HostEvent → State → State
  | [], s => s
  | e :: es, s => afterEvents es (afterEvent e s)

theorem applyEvents_eq (es : List HostEvent) (s : State) :
    applyEvents es s = .next (afterEvents es s) := by
  induction es generalizing s with
  | nil => rfl
  | cons e es ih => simp only [applyEvents, applyEvent_eq, andThen, afterEvents, ih]

theorem afterEvents_append (es es' : List HostEvent) (s : State) :
    afterEvents (es ++ es') s = afterEvents es' (afterEvents es s) := by
  induction es generalizing s with
  | nil => rfl
  | cons e es ih => exact ih _

/-- Induction over inputs, packaged once: what holds at the start and is kept by every input holds after all. -/
theorem afterEvents_induct {P : State → Prop} {Q : HostEvent → Prop}
    (keep : ∀ e s, Q e → P s → P (afterEvent e s)) :
    ∀ es s, (∀ e ∈ es, Q e) → P s → P (afterEvents es s)
  | [], _, _, h => h
  | e :: es, s, hq, h =>
    afterEvents_induct keep es _ (fun e' he => hq e' (List.mem_cons_of_mem _ he))
      (keep e s (hq e List.mem_cons_self) h)

/-- One poll of the host: the block's state after it, and the stream less the byte it took, if it took one (R34). -/
theorem hostPoll_eq (turn : PollTurn) (s : State) (stream : List Byte) :
    hostPoll turn s stream =
      .next (afterEvent (pollInput turn stream) s, streamAfter stream (afterEvent (pollInput turn stream) s)) := by
  simp only [hostPoll, applyEvent_eq, andThen]

@[simp] theorem afterCommand_cfg (i : Instr) (s : State) : (afterCommand i s).cfg = s.cfg := by
  cases i <;> simp only [afterCommand] <;> (repeat' split) <;> simp

@[simp] theorem afterCommand_now (i : Instr) (s : State) : (afterCommand i s).now = s.now := by
  cases i <;> simp only [afterCommand] <;> (repeat' split) <;> simp

@[simp] theorem afterCommand_inbox (i : Instr) (s : State) : (afterCommand i s).inbox = s.inbox := by
  cases i <;> simp only [afterCommand] <;> (repeat' split) <;> simp

@[simp] theorem afterEvent_cfg (e : HostEvent) (s : State) : (afterEvent e s).cfg = s.cfg := by
  cases e with
  | reset => rfl
  | command w nowMs => simp only [afterEvent]; split <;> simp

@[simp] theorem afterEvent_inbox (e : HostEvent) (s : State) : (afterEvent e s).inbox = s.inbox := by
  cases e with
  | reset => rfl
  | command w nowMs => simp only [afterEvent]; split <;> simp

end Sys2Proof.Machine
end

