-- ==== Sys2Proof/Laws/PerInstr.lean ====
section
/-! SUPPORT. Statements about every command, one lemma per constructor. -/

namespace Sys2Proof.Laws

/-- The word of a command keeps the field layout of R49: OP is its opcode, RSV is 0 and DATA is its data byte. -/
def EncodeFields.Statement (i : Instr) : Prop :=
  opField (encode i) = opcodeOf i ∧ rsvField (encode i) = 0#4 ∧ dataField (encode i) = dataOf i

/-- The layout of R49 for any opcode and byte. -/
theorem fields_of_append (op : BitVec 4) (b : Byte) :
    opField (op ++ 0#4 ++ b) = op ∧ rsvField (op ++ 0#4 ++ b) = 0#4 ∧ dataField (op ++ 0#4 ++ b) = b := by
  have bit (j : Nat) : (op ++ 0#4 ++ b).getLsbD j =
      if j < 8 then b.getLsbD j else if j - 8 < 4 then false else op.getLsbD (j - 8 - 4) := by
    rw [BitVec.getLsbD_append]
    split
    · rfl
    · rw [BitVec.getLsbD_append]; split <;> simp
  refine ⟨?_, ?_, ?_⟩
  · ext i hi
    have h := bit (12 + i)
    have e1 : ¬12 + i < 8 := by omega
    have e2 : ¬12 + i - 8 < 4 := by omega
    have e3 : 12 + i - 8 - 4 = i := by omega
    rw [if_neg e1, if_neg e2, e3] at h
    simpa [opField, BitVec.getLsbD_eq_getElem hi] using h
  · ext i hi
    have h := bit (8 + i)
    have e1 : ¬8 + i < 8 := by omega
    have e2 : 8 + i - 8 < 4 := by omega
    rw [if_neg e1, if_pos e2] at h
    simpa [rsvField] using h
  · ext i hi
    have h := bit i
    rw [if_pos hi] at h
    simpa [dataField, BitVec.getLsbD_eq_getElem hi] using h

theorem EncodeFields.nop : EncodeFields.Statement .nop := fields_of_append _ _
theorem EncodeFields.fsArm : EncodeFields.Statement .fsArm := fields_of_append _ _
theorem EncodeFields.fsPoll : EncodeFields.Statement .fsPoll := fields_of_append _ _
theorem EncodeFields.fsPollByte (b : Byte) : EncodeFields.Statement (.fsPollByte b) := fields_of_append _ _
theorem EncodeFields.ckInit : EncodeFields.Statement .ckInit := fields_of_append _ _
theorem EncodeFields.ckByte (b : Byte) : EncodeFields.Statement (.ckByte b) := fields_of_append _ _
theorem EncodeFields.start : EncodeFields.Statement .start := fields_of_append _ _

end Sys2Proof.Laws
end

