-- ==== Sys2Proof/Tests/Slice0.lean ====
section
/-! SUPPORT. Tests of the model. Expected results are the vectors of 95_test_vectors.md (named in each comment) or hand
calculation from the rule named. The theorems `test_witness_…` show that a statement's hypotheses can be met, at the
boundary where it has one. -/

namespace Sys2Proof.Tests

open Sys2Proof Sys2Proof.Machine

/-- The next state, if the outcome is one. -/
def got (o : Host.Outcome State Fault Refusal) : Option State :=
  match o with
  | .next s => some s
  | .fault _ => none
  | .refused _ => none

/-- The vectors' start state `(fs, t, 0 ; 0x008F, 0, 0 ; 0b00)` with NOW. -/
def fsAt (fs : FsState) (t now : Nat) : State :=
  { State.reset with fsState := fs, fsTStart := t, now := now }

/-- The vectors' CK part. -/
def ckAt (sum : Word) (count : Fin 31) (exp : Word) : State :=
  { State.reset with ckSum := sum, ckCount := count, ckExp := exp }

/-- The same state under another configuration. -/
def withConfig (c : Config) (s : State) : State := { s with cfg := c }

def strictConfig : Config := { Config.default with resyncPolicy := .strict }
def perPhaseConfig : Config := { Config.default with deadlinePolicy := .perPhase }
def zeroBudget : Config := { Config.default with budgetMs := 0 }
def narrowClock : Config := { Config.default with tickBits := 16 }

/-! ## Well-formedness: an ill-formed term for each check (R7) -/

theorem test_default_config_wf : Config.default.wf := by decide
theorem test_short_clock_refused : ¬({ Config.default with tickBits := 10 } : Config).wf := by decide
theorem test_wide_budget_refused : ¬({ Config.default with tickBits := 11, budgetMs := 2048 } : Config).wf := by
  decide
theorem test_smallest_clock_wf : ({ Config.default with tickBits := 11 } : Config).wf := by decide
theorem test_every_byte_is_an_operand : (Instr.fsPollByte 0xFF#8).wf = true ∧ (Instr.ckByte 0x00#8).wf = true := by
  decide

/-! ## Decoding: words written out bit by bit from R49 and R51 -/

theorem test_decode_nop : decode 0b0000_0000_00000000#16 = .ok .nop := rfl
theorem test_decode_fsArm : decode 0b0001_0000_00000000#16 = .ok .fsArm := rfl
theorem test_decode_fsPoll : decode 0b0010_0000_00000000#16 = .ok .fsPoll := rfl
theorem test_decode_fsPollByte : decode 0b0011_0000_01001101#16 = .ok (.fsPollByte 0x4D#8) := rfl
theorem test_decode_ckInit : decode 0b0100_0000_00000000#16 = .ok .ckInit := rfl
theorem test_decode_ckByte : decode 0b0101_0000_00011100#16 = .ok (.ckByte 0x1C#8) := rfl
theorem test_decode_start : decode 0b0110_0000_00000000#16 = .ok .start := rfl
/-- IL1, IL3, IL4, IL5 and IL7 of L2.7. -/
theorem test_decode_illegal :
    decode 0x7000#16 = .error .reservedOpcode ∧ decode 0xF0FF#16 = .error .reservedOpcode ∧
    decode 0x0100#16 = .error .reservedFieldSet ∧ decode 0x1001#16 = .error .strayData ∧
    decode 0x3142#16 = .error .reservedFieldSet := ⟨rfl, rfl, rfl, rfl, rfl⟩
theorem test_table_word : decodeTableWord 16 0x3042 = some (.fsPollByte 0x42#8) := by decide
/-- The example of R58: `@250 FS_POLL_BYTE 0x42`. -/
theorem test_assembler_example :
    readTimed (['@', '2', '5', '0', ' '] ++ commandText (.fsPollByte 0x42#8)) =
      some (250, .fsPollByte 0x42#8) ∧
    commandText (.fsPollByte 0x4D#8) =
      ['F', 'S', '_', 'P', 'O', 'L', 'L', '_', 'B', 'Y', 'T', 'E', ' ', '0', 'x', '4', 'D'] ∧
    timedText 250 .nop = ['@', '2', '5', '0', ' ', 'N', 'O', 'P'] ∧
    readCommand ['N', 'O'] = none := by decide

/-! ## The commands -/

/-- NP1. -/
theorem test_nop_never_times_out :
    (got (exec .nop { fsAt .hunt 0 99999 with fsConsumed := true })).map
      (fun s => (s.fsState, s.fsConsumed, (presented s).fsDeadlineExpired)) = some (.hunt, false, true) := by
  decide
/-- ST1. -/
theorem test_start_clears_both_units :
    got (exec .start { ckAt 0x0005#16 30 0x0005#16 with
      fsState := .timeout, fsTStart := 3, fsConsumed := true, now := 1234 }) =
    some { State.reset with fsState := .hunt, fsTStart := 1234, now := 1234 } := by decide
/-- ST3. -/
theorem test_start_keeps_fault :
    (got (exec .start { State.reset with fault := 0b01#2 })).map (·.fault) = some 0b01#2 := by decide
/-- FA1. -/
theorem test_fsArm_from_reset :
    (got (exec .fsArm { State.reset with now := 500 })).map
      (fun s => (s.fsState, s.fsTStart, (presented s).fsElapsed, (presented s).fsDeadlineExpired)) =
    some (.hunt, 500, 0, false) := by decide
/-- FA4 and FA5. -/
theorem test_fsArm_drops_candidate_keeps_ck :
    (got (exec .fsArm { ckAt 0x0123#16 5 0#16 with
      fsState := .got42, fsTStart := 100, fsConsumed := true, now := 300 })).map
      (fun s => (s.fsState, s.fsTStart, s.fsConsumed, s.ckCount, s.ckSum)) =
    some (.hunt, 300, false, 5, 0x0123#16) := by decide
/-- FP1 and FP2: 999 ms stay, 1000 ms time out. -/
theorem test_fsPoll_at_the_budget :
    (got (exec .fsPoll (fsAt .hunt 100 1099))).map (·.fsState) = some .hunt ∧
    (got (exec .fsPoll (fsAt .hunt 100 1100))).map (·.fsState) = some .timeout := by decide
/-- FP6 and FP7: the 16-bit counter wraps. -/
theorem test_fsPoll_across_the_wrap :
    (got (exec .fsPoll (withConfig narrowClock (fsAt .hunt 0xFFF0 0x0010)))).map
      (fun s => (s.fsState, (presented s).fsElapsed)) = some (.hunt, 32) ∧
    (got (exec .fsPoll (withConfig narrowClock (fsAt .hunt 0xFF00 0x02E8)))).map
      (fun s => (s.fsState, (presented s).fsElapsed)) = some (.timeout, 1000) := by decide
/-- FB5 under both policies. -/
theorem test_fsPollByte_policies_differ :
    (got (exec (.fsPollByte 0x42#8) (fsAt .got42 0 10))).map (·.fsState) = some .got42 ∧
    (got (exec (.fsPollByte 0x42#8) (withConfig strictConfig (fsAt .got42 0 10)))).map (·.fsState) =
      some .hunt := by decide
/-- FB9, FB10 and FB14: sync at 999, timeout at 1000, and the re-arm under PER_PHASE. -/
theorem test_fsPollByte_deadline_first :
    (got (exec (.fsPollByte 0x4D#8) (fsAt .got42 0 999))).map (fun s => (s.fsState, s.fsConsumed)) =
      some (.synced, true) ∧
    (got (exec (.fsPollByte 0x4D#8) (fsAt .got42 0 1000))).map (fun s => (s.fsState, s.fsConsumed)) =
      some (.timeout, false) ∧
    (got (exec (.fsPollByte 0x4D#8) (withConfig perPhaseConfig (fsAt .got42 100 700)))).map (·.fsTStart) =
      some 700 := by decide
/-- CI1 and CI3. -/
theorem test_ckInit_mid_frame :
    got (exec .ckInit { ckAt 0x1234#16 29 0x0100#16 with fault := 0b10#2 }) =
      some { State.reset with fault := 0b10#2 } := by decide
/-- CB2, CB3, CB4 and CB7. -/
theorem test_ckByte_positions :
    got (exec (.ckByte 0xFF#8) (ckAt 0x1B74#16 27 0#16)) = some (ckAt 0x1C73#16 28 0#16) ∧
    got (exec (.ckByte 0x1C#8) (ckAt 0x1C73#16 28 0#16)) = some (ckAt 0x1C73#16 29 0x1C00#16) ∧
    got (exec (.ckByte 0x73#8) (ckAt 0x1C73#16 29 0x1C00#16)) = some (ckAt 0x1C73#16 30 0x1C73#16) ∧
    got (exec (.ckByte 0x02#8) (ckAt 0xFFFF#16 3 0#16)) = some (ckAt 0x0001#16 4 0#16) := by decide
/-- CB6. -/
theorem test_ckByte_overrun :
    got (exec (.ckByte 0x00#8) (ckAt 0x1C73#16 30 0x1C73#16)) =
      some { ckAt 0x1C73#16 30 0x1C73#16 with fault := 0b10#2 } := by decide
/-- CB5: a mismatch carries both values. -/
theorem test_mismatch_outputs :
    readResult (presented { ckAt 0x1C73#16 30 0x1C74#16 with fsState := .synced }) =
      .checksumMismatch 0x1C74#16 0x1C73#16 := by decide
/-- L1.7: 17 bytes after the marker, at the deadline. -/
theorem test_shortfall_outputs :
    readResult (presented { ckAt 0x0124#16 17 0#16 with fsState := .synced, now := 1000 }) = .incomplete 17 ∧
    (presented { ckAt 0x0124#16 17 0#16 with fsState := .synced, now := 1000 }).fsDeadlineExpired = true := by
  decide
/-- IL7: the FS does not see the 0x42 of an illegal word. -/
theorem test_illegal_word_step :
    (got (applyEvent (.command 0x3142#16 10)
      { ckAt 0x0099#16 4 0#16 with fsState := .got42, fsConsumed := true })).map
      (fun s => (s.fsState, s.fsConsumed, s.fault, s.ckCount)) = some (.got42, false, 0b01#2, 4) := by decide
/-- R113 from a state with both faults set. -/
theorem test_reset_clears_faults :
    got (applyEvent .reset { ckAt 0x0005#16 30 0x0007#16 with fault := 0b11#2, fsState := .timeout }) =
      some State.reset := by decide
/-- The first command after reset, placed as the host places it (R114: a poll in IDLE takes no byte). -/
theorem test_first_command_after_reset :
    got (step (State.reset.withFetchWord 16 0x3042)) = some State.reset ∧
    (got (step (State.reset.withFetchWord 16 0x6000))).map (·.fsState) = some .hunt := by decide

/-! ## Witnesses: each statement's hypotheses, met together by concrete data -/

/-- A state with one input waiting. -/
def waiting (e : HostEvent) (s : State) : State := { s with inbox := [e] }

theorem test_witness_reset_event : (waiting .reset (fsAt .got42 5 9)).inbox = .reset :: [] := rfl
theorem test_witness_no_arm :
    ∀ e ∈ [commandAt 5 .fsPoll, .command 0x7000#16 6, commandAt 7 (.fsPollByte 0x42#8), commandAt 8 .ckInit],
      armsOrResets e = false := by decide
theorem test_witness_decoded : decode (encode (.ckByte 0xFF#8)) = .ok (.ckByte 0xFF#8) := rfl
theorem test_witness_step_runs :
    (waiting (.command 0x304D#16 4294967301) State.reset).inbox = .command 0x304D#16 4294967301 :: [] ∧
    decode 0x304D#16 = .ok (.fsPollByte 0x4D#8) ∧ (Instr.fsPollByte 0x4D#8).wf = true := ⟨rfl, rfl, rfl⟩
/-- One word for each of the three clauses, at its boundary (R52). -/
theorem test_witness_illegal_words :
    0x7#4 ≤ (0x7000#16).extractLsb' 12 4 ∧ (0x6100#16).extractLsb' 8 4 ≠ 0#4 ∧
    ((0x6001#16).extractLsb' 12 4 ≠ 0x3#4 ∧ (0x6001#16).extractLsb' 12 4 ≠ 0x5#4 ∧
      (0x6001#16).extractLsb' 0 8 ≠ 0#8) ∧
    (waiting (.command 0x6001#16 3) State.reset).inbox = .command 0x6001#16 3 :: [] := by decide
theorem test_witness_idle : State.reset.inbox = [] := rfl
theorem test_witness_step_answers : got (step (waiting (commandAt 3 .start) State.reset)) ≠ none := by decide
theorem test_witness_elapsed : 65520 ≤ 131055 ∧ 131055 - 65520 < 2 ^ narrowClock.tickBits := by decide
/-- Expired at exactly the budget, in both hunting states. -/
theorem test_witness_expired :
    (fsAt .hunt 100 1100).fsState = .hunt ∧ (fsAt .got42 100 1100).fsState = .got42 ∧
    (fsAt .hunt 100 1100).cfg.budgetMs ≤
      tickSub (fsAt .hunt 100 1100).cfg.tickBits (fsAt .hunt 100 1100).now (fsAt .hunt 100 1100).fsTStart ∧
    (fsAt .got42 100 1100).cfg.budgetMs ≤
      tickSub (fsAt .got42 100 1100).cfg.tickBits (fsAt .got42 100 1100).now (fsAt .got42 100 1100).fsTStart := by
  decide
/-- Not expired one millisecond before, in both hunting states and under every policy. -/
theorem test_witness_not_expired :
    ∀ c ∈ [Config.default, strictConfig, perPhaseConfig], ∀ st ∈ [FsState.hunt, FsState.got42],
      (withConfig c (fsAt st 100 1099)).fsState = st ∧
      tickSub (withConfig c (fsAt st 100 1099)).cfg.tickBits (withConfig c (fsAt st 100 1099)).now
        (withConfig c (fsAt st 100 1099)).fsTStart < (withConfig c (fsAt st 100 1099)).cfg.budgetMs := by decide
theorem test_witness_policies :
    Config.default.resyncPolicy = .sliding ∧ strictConfig.resyncPolicy = .strict ∧
    Config.default.deadlinePolicy = .shared ∧ perPhaseConfig.deadlinePolicy = .perPhase := by decide
theorem test_witness_detector_cell : ¬(FsState.got42 = .got42 ∧ 0x4D#8 = 0x42#8) := by decide
theorem test_witness_outside_the_hunt :
    (fsAt .idle 0 5000).fsState = .idle ∧ (fsAt .synced 0 5000).fsState = .synced ∧
    (fsAt .timeout 0 10).fsState = .timeout := by decide
/-- Both sides of R78: taken at 1099, not taken at 1100. -/
theorem test_witness_consumed :
    (got (step (waiting (.command 0x304D#16 1099) (fsAt .got42 100 0)))).map (·.fsConsumed) = some true ∧
    (got (step (waiting (.command 0x304D#16 1100) (fsAt .got42 100 0)))).map (·.fsConsumed) = some false := by
  decide
theorem test_witness_leaves_timeout :
    (fsAt .timeout 0 0).fsState = .timeout ∧ FsState.hunt ≠ .timeout ∧
    (got (step (waiting (.command 0x1000#16 5) (fsAt .timeout 0 0)))).map (·.fsState) = some .hunt ∧
    (got (step (waiting .reset (fsAt .timeout 0 0)))).map (·.fsState) = some .idle := by decide
theorem test_witness_zero_budget :
    (withConfig zeroBudget (fsAt .hunt 50 50)).cfg.budgetMs = 0 ∧
    (withConfig zeroBudget (fsAt .hunt 50 50)).fsState = .hunt ∧
    (withConfig zeroBudget (fsAt .hunt 50 50)).fsState ≠ .synced := by decide

/-- Polls offering the given bytes, 10 ms apart from `t`. -/
def polls (t : Nat) : List Byte → List HostEvent
  | [] => []
  | b :: bs => commandAt t (.fsPollByte b) :: polls (t + 10) bs

/-- L1.6, first row under SLIDING: the hypotheses and a sync at the fifth byte. -/
theorem test_witness_sliding :
    (∀ e ∈ polls 110 [0x00#8, 0x42#8, 0x00#8, 0x42#8, 0x4D#8], armsOrResets e = false) ∧
    ((got (applyEvents (polls 110 [0x00#8, 0x42#8, 0x00#8, 0x42#8, 0x4D#8]) (fsAt .hunt 100 100))).map
      (·.fsState)) = some .synced ∧
    consumedBytes (polls 110 [0x42#8, 0x42#8, 0x4D#8, 0x42#8]) (fsAt .hunt 100 100) =
      [0x42#8, 0x42#8, 0x4D#8] := by decide
/-- L1.6, the STRICT column: one run of odd length and one of even length. -/
theorem test_witness_strict :
    (∀ k ∈ [1, 2, 3, 4], (∀ e ∈ polls 110 (List.replicate k 0x42#8), armsOrResets e = false) ∧
      consumedBytes (polls 110 (List.replicate k 0x42#8)) (withConfig strictConfig (fsAt .hunt 100 100)) =
        List.replicate k 0x42#8 ∧
      ((got (applyEvents (polls 110 (List.replicate k 0x42#8 ++ [0x4D#8]))
        (withConfig strictConfig (fsAt .hunt 100 100)))).map fun s => (s.fsState, s.fsConsumed)) =
        some (if k % 2 = 1 then .synced else .hunt, true)) := by decide
/-- The polling loop on `00 42 42 4D 99`, with one empty turn: it ends SYNCED and leaves `99`. -/
theorem test_witness_hunt :
    (match huntLoop [⟨110, false⟩, ⟨120, true⟩, ⟨130, true⟩, ⟨140, true⟩, ⟨150, true⟩, ⟨160, true⟩]
        (fsAt .hunt 100 100) [0x00#8, 0x42#8, 0x42#8, 0x4D#8, 0x99#8] with
      | .next p => some (p.1.fsState, p.2)
      | .fault _ => none
      | .refused _ => none) = some (.synced, [0x99#8]) := by decide
/-- R122: the byte offered at the deadline is not taken and stays in the stream, and so does one never offered. -/
theorem test_witness_hunt_timeout :
    (match huntLoop [⟨1099, true⟩, ⟨1100, true⟩, ⟨1101, true⟩] (fsAt .hunt 100 100)
        [0x42#8, 0x4D#8, 0x99#8] with
      | .next p => some (p.1.fsState, p.2)
      | .fault _ => none
      | .refused _ => none) = some (.timeout, [0x4D#8, 0x99#8]) := by decide
/-- P4's spacing with 16 bits, the poll that passes the deadline coming after a wrap. -/
theorem test_witness_spaced_polls :
    (withConfig narrowClock (fsAt .hunt 65000 65000)).cfg.wf ∧
    hunting (withConfig narrowClock (fsAt .hunt 65000 65000)).fsState = true ∧
    (withConfig narrowClock (fsAt .hunt 65000 65000)).fsTStart = sampleClock narrowClock 65000 ∧
    pollsWithinWrap narrowClock 65000 [65500, 66000] = true ∧ 65000 + narrowClock.budgetMs ≤ 66000 := by decide
/-- The duty of R121 is refused at its boundary. -/
theorem test_spacing_boundary :
    pollsWithinWrap narrowClock 0 [64535] = true ∧ pollsWithinWrap narrowClock 0 [64536] = false := by decide
theorem test_witness_suspended :
    (fsAt .hunt 100 100).fsTStart = sampleClock Config.default 100 ∧ 1100 - 100 < 2 ^ Config.default.tickBits ∧
    (∀ x ∈ [100, 600, 1100], 100 ≤ x ∧ x ≤ 1100) := by decide
/-- FP9, and the largest step back the statement covers. -/
theorem test_witness_stale_clock :
    hunting (withConfig narrowClock (fsAt .hunt 100 100)).fsState = true ∧
    (withConfig narrowClock (fsAt .hunt 100 100)).fsTStart = sampleClock narrowClock 65636 ∧
    0 < 64536 ∧ 64536 ≤ 65636 ∧ 64536 + narrowClock.budgetMs ≤ 2 ^ narrowClock.tickBits := by decide
theorem test_witness_monotone_clock :
    (fsAt .got42 100 100).now = sampleClock Config.default 100 ∧
    clockMonotone 100 [commandAt 100 .nop, commandAt 700 (.fsPollByte 0x4D#8), commandAt 700 .ckInit] = true ∧
    lastClock 100 [commandAt 100 .nop, commandAt 700 (.fsPollByte 0x4D#8), commandAt 700 .ckInit] = 700 ∧
    clockMonotone 100 [commandAt 99 .nop] = false := by decide
/-- One state for each position class of R82, at its ends. -/
theorem test_witness_positions :
    (ckAt 0#16 0 0#16).ckCount.val ≤ 27 ∧ (ckAt 0#16 27 0#16).ckCount.val ≤ 27 ∧
    (ckAt 0#16 28 0#16).ckCount = 28 ∧ (ckAt 0#16 29 0#16).ckCount = 29 ∧ (ckAt 0#16 30 0#16).ckCount = 30 := by
  decide

/-- The first 28 bytes of the frame of L1.8. -/
def frameL18 : List Byte :=
  [0x00#8, 0x1C#8, 0x00#8, 0x0A#8, 0x00#8, 0x14#8, 0x00#8, 0x1E#8, 0x00#8, 0x0A#8, 0x00#8, 0x14#8, 0x00#8, 0x1E#8,
   0x00#8, 0x01#8, 0x00#8, 0x02#8, 0x00#8, 0x03#8, 0x00#8, 0x04#8, 0x00#8, 0x05#8, 0x00#8, 0x00#8, 0x00#8, 0x00#8]

/-- L1.8, with a NOP between the bytes; the checksum is 0x0132. -/
theorem test_witness_thirty_bytes :
    frameL18.length = 28 ∧
    (∀ e ∈ commandAt 5 .nop :: (frameL18 ++ [0x01#8, 0x32#8]).map (fun b => commandAt 6 (.ckByte b)),
      clearsOrResets e = false) ∧
    (commandAt 5 .nop :: (frameL18 ++ [0x01#8, 0x32#8]).map (fun b => commandAt 6 (.ckByte b))).filterMap fedByte =
      frameL18 ++ [0x01#8, 0x32#8] ∧
    (0x01#8 ++ 0x32#8 : Word) = BitVec.ofNat 16 ((0x8F + (frameL18.map BitVec.toNat).sum) % 65536) := by decide
theorem test_witness_same_ck_commands :
    ([commandAt 2 .nop, commandAt 3 .start].filterMap ckEvent).head? = some .clear ∧
    (fsAt .hunt 3 9).sameCk State.reset ∧
    [commandAt 5 .nop, commandAt 6 (.ckByte 0x10#8)].filterMap ckEvent =
      [commandAt 900 (.ckByte 0x10#8), commandAt 901 .fsArm].filterMap ckEvent ∧
    (∀ e ∈ [commandAt 5 .nop, commandAt 6 (.ckByte 0x10#8)], isReset e = false) ∧
    (∀ e ∈ [commandAt 900 (.ckByte 0x10#8), commandAt 901 .fsArm], isReset e = false) := by decide
/-- A first and a last byte of the 30, with the first and the last bit. -/
theorem test_witness_flip :
    (frameL18 ++ [0x01#8, 0x32#8]).length = 30 ∧ (frameL18 ++ [0x01#8, 0x32#8])[0]? = some 0x00#8 ∧
    (frameL18 ++ [0x01#8, 0x32#8])[29]? = some 0x32#8 ∧ 0 < 8 ∧ 7 < 8 := by decide
/-- L1.8 matches, so the flip statement's premise is met. -/
theorem test_witness_matching_frame :
    (got (applyEvents (frameEvents 0 (frameL18 ++ [0x01#8, 0x32#8])) State.reset)).map ckMatch = some true := by
  decide
theorem test_witness_fault_step :
    (got (step (waiting (.command 0x5000#16 1) (ckAt 0x1C73#16 30 0x1C73#16)))).map (·.fault) = some 0b10#2 ∧
    legal 0x5000#16 = true ∧ legal 0x7000#16 = false := by decide
/-- A host that keeps R124 at its boundary, and one that does not. -/
theorem test_witness_dutiful_host :
    feedsWithinFrame (ckAt 0#16 29 0#16).ckCount.val [.ckByte 0x00#8, .ckInit, .ckByte 0x01#8, .nop] = true ∧
    feedsWithinFrame (ckAt 0#16 29 0#16).ckCount.val [.ckByte 0x00#8, .ckByte 0x01#8] = false ∧
    State.reset.faultFree := by decide
theorem test_witness_invariant :
    State.reset.inv ∧ (ckAt 0x0132#16 29 0x0100#16).inv ∧ (ckAt 0x1C73#16 28 0#16).sumBounded ∧
    ¬(ckAt 0x0132#16 28 0x0100#16).inv ∧ ¬(ckAt 0x0132#16 29 0x0132#16).inv := by decide
theorem test_witness_shared_units :
    (fsAt .hunt 0 0).fsState = ({ ckAt 0x0132#16 7 0#16 with fsState := .hunt } : State).fsState ∧
    (fsAt .hunt 0 0).fsTStart = (ckAt 0x0132#16 7 0#16).fsTStart ∧
    (fsAt .hunt 0 0).cfg = (ckAt 0x0132#16 7 0#16).cfg ∧ (fsAt .hunt 0 0).now = (ckAt 0x0132#16 7 0#16).now ∧
    State.reset.sameCk (fsAt .got42 1 2) := by decide
theorem test_witness_valid_frame :
    Config.default.wf ∧ 100 ≤ 100 ∧ 100 < 100 + Config.default.budgetMs ∧
    1099 < 100 + Config.default.budgetMs ∧ (List.range 30).length = 30 := by decide
/-- The same state with the FS in SYNCED. -/
def synced (s : State) : State := { s with fsState := .synced }

/-- SYNCED with 29 bytes, with a match at 30 and with a mismatch at 30. -/
theorem test_witness_results :
    (synced (ckAt 0x0132#16 29 0x0100#16)).fsState = .synced ∧ (synced (ckAt 0x0132#16 29 0x0100#16)).ckCount ≠ 30 ∧
    (synced (ckAt 0x0132#16 30 0x0132#16)).fsState = .synced ∧ (synced (ckAt 0x0132#16 30 0x0132#16)).ckCount = 30 ∧
    (synced (ckAt 0x0132#16 30 0x0132#16)).ckSum = (synced (ckAt 0x0132#16 30 0x0132#16)).ckExp ∧
    (synced (ckAt 0x0132#16 30 0x0133#16)).fsState = .synced ∧ (synced (ckAt 0x0132#16 30 0x0133#16)).ckCount = 30 ∧
    (synced (ckAt 0x0132#16 30 0x0133#16)).ckSum ≠ (synced (ckAt 0x0132#16 30 0x0133#16)).ckExp := by decide

end Sys2Proof.Tests
end

section
/-! The step as a whole (spec/00_scope.md): its two outcomes by the inbox, that it is total, what it runs, and that it
keeps the configuration. -/

namespace Sys2Proof.Machine

/-- With no input the block holds its state (R112). -/
theorem step_of_inbox_nil {s : State} (h : s.inbox = []) : step s = .next s := by
  simp only [step, h]

/-- All a step can do: hold the state, or apply the oldest input. -/
theorem step_cases (s : State) :
    (s.inbox = [] ∧ step s = .next s) ∨
      ∃ e rest, s.inbox = e :: rest ∧ step s = .next (afterEvent e (acceptInput rest s)) := by
  cases h : s.inbox with
  | nil => exact .inl ⟨rfl, step_of_inbox_nil h⟩
  | cons e rest => exact .inr ⟨e, rest, rfl, step_of_inbox h⟩

/-- The effect of a legal word is its command at the sampled clock (R55). -/
theorem afterEvent_of_decode_ok {w : Word} {i : Instr} (h : decode w = .ok i) (nowMs : Nat) (s : State) :
    afterEvent (.command w nowMs) s = afterCommand i (sampleNow nowMs s) := by
  simp only [afterEvent, h]

/-- Settles O8: the waiting word is accepted, the clock sampled, and the decoded command run. -/
theorem stepRunsTheDecodedCommand : Obligations.StepRunsTheDecodedCommand := by
  intro s w nowMs rest i hinbox hdecode _
  calc step s
      = .next (afterEvent (.command w nowMs) (acceptInput rest s)) := step_of_inbox hinbox
    _ = .next (afterCommand i (sampleNow nowMs (acceptInput rest s))) := by
        rw [afterEvent_of_decode_ok hdecode]
    _ = exec i (sampleNow nowMs (acceptInput rest s)) := (exec_eq_afterCommand i _).symm

/-- Settles O10: `step_cases` names the next state of a step, `afterCommand` that of a command. -/
theorem everyStepAnswersANextState : Obligations.EveryStepAnswersANextState := by
  refine ⟨fun s => ?_, fun i s => ⟨_, exec_eq_afterCommand i s⟩⟩
  obtain ⟨_, hstep⟩ | ⟨_, _, _, hstep⟩ := step_cases s <;> exact ⟨_, hstep⟩

/-- Settles O12: a step holds the state or applies one input, and no input writes the configuration. -/
theorem noStepWritesTheConfiguration : Obligations.NoStepWritesTheConfiguration := by
  intro s t h
  obtain ⟨_, hstep⟩ | ⟨e, rest, _, hstep⟩ := step_cases s
  · obtain rfl : s = t := by simpa [hstep] using h
    rfl
  · obtain rfl : afterEvent e (acceptInput rest s) = t := by simpa [hstep] using h
    simp

end Sys2Proof.Machine
end

section
/-! What a command and an input do to each unit's registers (R14, R51), said once: the CK's part as a function of the
CK registers, the four positions of CK_BYTE, who writes the FS registers, and what can be added to `fault`. -/

namespace Sys2Proof.Machine

theorem State.sameCk.refl (s : State) : s.sameCk s := ⟨rfl, rfl, rfl⟩

theorem State.sameCk.symm {s t : State} (h : s.sameCk t) : t.sameCk s :=
  ⟨h.1.symm, h.2.1.symm, h.2.2.symm⟩

theorem State.sameCk.trans {s t u : State} (h : s.sameCk t) (h' : t.sameCk u) : s.sameCk u :=
  ⟨h.1.trans h'.1, h.2.1.trans h'.2.1, h.2.2.trans h'.2.2⟩

/-- All an input can do: reset, run the command its word decodes to, or raise ILLEGAL_CMD (R53, R55, R113). -/
theorem afterEvent_cases (e : HostEvent) (s : State) :
    (e = .reset ∧ afterEvent e s = resetStep s) ∨
      (∃ w nowMs i, e = .command w nowMs ∧ decode w = .ok i ∧
        afterEvent e s = afterCommand i (sampleNow nowMs s)) ∨
      ∃ w nowMs r, e = .command w nowMs ∧ decode w = .error r ∧
        afterEvent e s = takeFault .illegalCmd (sampleNow nowMs s) := by
  cases e with
  | reset => exact .inl ⟨rfl, rfl⟩
  | command w nowMs =>
    cases h : decode w with
    | ok i => exact .inr (.inl ⟨w, nowMs, i, rfl, h, afterEvent_of_decode_ok h nowMs s⟩)
    | error r => exact .inr (.inr ⟨w, nowMs, r, rfl, h, by simp only [afterEvent, h, illegalStep_eq]⟩)

/-- What accepting an input and its effect keep, every step keeps. -/
theorem step_keeps {P : State → Prop} (accept : ∀ rest s, P s → P (acceptInput rest s))
    (keep : ∀ e s, P s → P (afterEvent e s)) {s t : State} (hs : P s) (h : step s = .next t) : P t := by
  obtain ⟨_, hstep⟩ | ⟨e, rest, _, hstep⟩ := step_cases s
  · obtain rfl : s = t := by simpa [hstep] using h
    exact hs
  · obtain rfl : afterEvent e (acceptInput rest s) = t := by simpa [hstep] using h
    exact keep e _ (accept rest s hs)

/-- FS_POLL: the expiry of a hunt, or nothing (R70, R71). -/
theorem afterCommand_fsPoll_cases (s : State) :
    (hunting s.fsState = true ∧ expired s s.now = true ∧ afterCommand .fsPoll s = timeOut (defaultConsumed s)) ∨
      (¬(hunting s.fsState = true ∧ expired s s.now = true) ∧ afterCommand .fsPoll s = defaultConsumed s) := by
  simp only [afterCommand, Bool.and_eq_true]
  split
  case isTrue h => exact .inl ⟨h.1, h.2, rfl⟩
  case isFalse h => exact .inr ⟨h, rfl⟩

/-- FS_POLL_BYTE: nothing outside the hunt, then the deadline, then the byte (R74). -/
theorem afterCommand_fsPollByte_cases (b : Byte) (s : State) :
    (hunting s.fsState = false ∧ afterCommand (.fsPollByte b) s = defaultConsumed s) ∨
      (hunting s.fsState = true ∧ expired s s.now = true ∧
        afterCommand (.fsPollByte b) s = timeOut (defaultConsumed s)) ∨
      (hunting s.fsState = true ∧ expired s s.now = false ∧
        afterCommand (.fsPollByte b) s = consumeByte b (defaultConsumed s)) := by
  cases hhunt : hunting s.fsState with
  | false => exact .inl ⟨rfl, by simp [afterCommand, hhunt]⟩
  | true =>
    cases hexpired : expired s s.now with
    | true => exact .inr (.inl ⟨rfl, rfl, by simp [afterCommand, hhunt, hexpired]⟩)
    | false => exact .inr (.inr ⟨rfl, rfl, by simp [afterCommand, hhunt, hexpired]⟩)

/-! ### The CK -/

/-- CK_BYTE by the position of its byte (R82): summed, captured high, captured low, or an overrun. -/
theorem afterCommand_ckByte_cases (b : Byte) (s : State) :
    (s.ckCount.val ≤ 27 ∧ afterCommand (.ckByte b) s = sumByte b (defaultConsumed s)) ∨
      (s.ckCount = 28 ∧ afterCommand (.ckByte b) s = captureHigh b (defaultConsumed s)) ∨
      (s.ckCount = 29 ∧ afterCommand (.ckByte b) s = captureLow b (defaultConsumed s)) ∨
      (s.ckCount = 30 ∧ afterCommand (.ckByte b) s = takeFault .ckOverrun s) := by
  simp only [afterCommand]
  split
  case isTrue h => exact .inl ⟨h, rfl⟩
  case isFalse h27 =>
    split
    case isTrue h28 => exact .inr (.inl ⟨h28, rfl⟩)
    case isFalse h28 =>
      split
      case isTrue h29 => exact .inr (.inr (.inl ⟨h29, rfl⟩))
      case isFalse h29 => exact .inr (.inr (.inr ⟨by omega, rfl⟩))

/-- The CK's part of a command (R51, the column "unit"), as an update of the state. -/
def ckEffect (s : State) : Option CkAction → State
  | none => s
  | some .clear => clearCk s
  | some (.feed b) => afterCommand (.ckByte b) s

/-- A command does to the CK what its CK part does, and nothing else. -/
theorem afterCommand_sameCk_ckEffect (i : Instr) (s : State) :
    (afterCommand i s).sameCk (ckEffect s (ckActionOf i)) := by
  cases i with
  | fsPoll => obtain ⟨_, _, h⟩ | ⟨_, h⟩ := afterCommand_fsPoll_cases s <;> rw [h] <;> exact .refl s
  | fsPollByte b =>
    obtain ⟨_, h⟩ | ⟨_, _, h⟩ | ⟨_, _, h⟩ := afterCommand_fsPollByte_cases b s <;> rw [h]
    · exact .refl s
    · exact .refl s
    · exact ⟨consumeByte_ckSum b _, consumeByte_ckCount b _, consumeByte_ckExp b _⟩
  | nop | fsArm => exact .refl s
  | ckInit | start => exact .refl (clearCk s)
  | ckByte b => exact .refl _

/-- The CK's part reads no register but the CK's. -/
theorem ckEffect_sameCk {s s' : State} (h : s.sameCk s') (a : Option CkAction) :
    (ckEffect s a).sameCk (ckEffect s' a) := by
  match a with
  | none => exact h
  | some .clear => exact ⟨rfl, rfl, rfl⟩
  | some (.feed b) =>
    obtain ⟨hsum, hcount, hexp⟩ := h
    simp only [ckEffect, afterCommand, hcount]
    split
    · simp [State.sameCk, hsum, hcount, hexp]
    · split
      · simp [State.sameCk, hsum, hexp]
      · split <;> simp [State.sameCk, hsum, hcount, hexp]

/-- Reset leaves the CK as a clear does (R84, R113). -/
theorem resetFor_sameCk_clearCk (c : Config) (s : State) : (State.resetFor c).sameCk (clearCk s) :=
  ⟨seed_eq.symm, rfl, rfl⟩

/-- A property of the CK registers that a clear establishes and CK_BYTE keeps is kept by every command. -/
theorem afterCommand_keeps_of_ck {P : State → Prop} (congr : ∀ {s t : State}, t.sameCk s → P s → P t)
    (clear : ∀ s, P (clearCk s)) (feed : ∀ b s, P s → P (afterCommand (.ckByte b) s))
    (i : Instr) {s : State} (hs : P s) : P (afterCommand i s) := by
  refine congr (afterCommand_sameCk_ckEffect i s) ?_
  match ckActionOf i with
  | none => exact hs
  | some .clear => exact clear s
  | some (.feed b) => exact feed b s hs

/-- The same for every step: reset clears the CK, and an illegal word does not touch it. -/
theorem step_keeps_of_ck {P : State → Prop} (congr : ∀ {s t : State}, t.sameCk s → P s → P t)
    (clear : ∀ s, P (clearCk s)) (feed : ∀ b s, P s → P (afterCommand (.ckByte b) s))
    {s t : State} (hs : P s) (h : step s = .next t) : P t := by
  refine step_keeps (P := P) (fun _ s => congr (.refl s)) (fun e s hs => ?_) hs h
  obtain ⟨_, he⟩ | ⟨_, _, i, _, _, he⟩ | ⟨_, _, _, _, _, he⟩ := afterEvent_cases e s <;> rw [he]
  · exact congr (resetFor_sameCk_clearCk s.cfg s) (clear s)
  · exact afterCommand_keeps_of_ck congr clear feed i (congr (.refl s) hs)
  · exact congr (.refl s) hs

/-! ### The FS -/

/-- CK_BYTE leaves the FS registers, but for the default of `fs_consumed` (R91). -/
theorem afterCommand_ckByte_sameFs (b : Byte) (s : State) :
    (afterCommand (.ckByte b) s).sameFs (defaultConsumed s) := by
  obtain ⟨_, h⟩ | ⟨_, h⟩ | ⟨_, h⟩ | ⟨_, h⟩ := afterCommand_ckByte_cases b s <;> rw [h] <;>
    exact ⟨rfl, rfl, rfl⟩

/-- `fs_t_start` is kept, or written with NOW by an arm or by the FS_POLL_BYTE that enters SYNCED under PER_PHASE
(R66, R76). -/
theorem afterCommand_fsTStart_cases (i : Instr) (s : State) :
    (afterCommand i s).fsTStart = s.fsTStart ∨
      ((afterCommand i s).fsTStart = s.now ∧ (isArm i = true ∨ (∃ b, i = .fsPollByte b) ∧
        hunting s.fsState = true ∧ (afterCommand i s).fsState = .synced ∧ s.cfg.deadlinePolicy = .perPhase)) := by
  cases i with
  | nop | ckInit => exact .inl rfl
  | fsArm | start => exact .inr ⟨rfl, .inl rfl⟩
  | ckByte b => exact .inl (afterCommand_ckByte_sameFs b s).2.1
  | fsPoll => left; obtain ⟨_, _, h⟩ | ⟨_, h⟩ := afterCommand_fsPoll_cases s <;> rw [h] <;> rfl
  | fsPollByte b =>
    obtain ⟨_, h⟩ | ⟨_, _, h⟩ | ⟨hhunt, _, h⟩ := afterCommand_fsPollByte_cases b s <;> rw [h]
    · exact .inl rfl
    · exact .inl rfl
    · rw [consumeByte_fsTStart, consumeByte_fsState]
      split
      case isTrue hsync => exact .inr ⟨rfl, .inr ⟨⟨b, rfl⟩, hhunt, hsync⟩⟩
      case isFalse => exact .inl rfl

/-- Outside the hunt only an arm writes `fs_state` (R71). -/
theorem afterCommand_fsState_of_not_hunting {i : Instr} {s : State} (harm : isArm i = false)
    (h : hunting s.fsState = false) : (afterCommand i s).fsState = s.fsState := by
  cases i with
  | nop | ckInit => rfl
  | fsArm | start => simp [isArm] at harm
  | ckByte b => exact (afterCommand_ckByte_sameFs b s).1
  | fsPoll | fsPollByte => simp [afterCommand, h]

/-- Only FS_POLL_BYTE takes a byte (R55, R78). -/
theorem afterCommand_fsConsumed_of_not_pollByte {i : Instr} (h : ∀ b, i ≠ .fsPollByte b) (s : State) :
    (afterCommand i s).fsConsumed = false := by
  cases i with
  | nop | fsArm | ckInit | start => rfl
  | fsPoll => obtain ⟨_, _, h⟩ | ⟨_, h⟩ := afterCommand_fsPoll_cases s <;> rw [h] <;> rfl
  | fsPollByte b => exact absurd rfl (h b)
  | ckByte b => exact (afterCommand_ckByte_sameFs b s).2.2

/-- Taking a byte reads the configuration, NOW, `fs_state` and `fs_t_start`, and nothing of the CK. -/
theorem consumeByte_sameFs {s s' : State} (hcfg : s.cfg = s'.cfg) (hnow : s.now = s'.now)
    (hstate : s.fsState = s'.fsState) (hstart : s.fsTStart = s'.fsTStart) (b : Byte) :
    (consumeByte b s).sameFs (consumeByte b s') := by
  refine ⟨by simp [hcfg, hstate], ?_, by simp⟩
  rw [consumeByte_fsTStart, consumeByte_fsTStart, hcfg, hnow, hstate, hstart]

/-- So does every command in what it does to the FS (D25). -/
theorem afterCommand_sameFs {s s' : State} (hcfg : s.cfg = s'.cfg) (hnow : s.now = s'.now)
    (hstate : s.fsState = s'.fsState) (hstart : s.fsTStart = s'.fsTStart) (i : Instr) :
    (afterCommand i s).sameFs (afterCommand i s') := by
  have hexpired : expired s s.now = expired s' s'.now := by
    rw [expired, expired, fsElapsed, fsElapsed, hcfg, hnow, hstart]
  cases i with
  | nop | ckInit => exact ⟨hstate, hstart, rfl⟩
  | fsArm | start => exact ⟨rfl, hnow, rfl⟩
  | ckByte b =>
    obtain ⟨hst, hts, hc⟩ := afterCommand_ckByte_sameFs b s
    obtain ⟨hst', hts', hc'⟩ := afterCommand_ckByte_sameFs b s'
    exact ⟨hst.trans (hstate.trans hst'.symm), hts.trans (hstart.trans hts'.symm), hc.trans hc'.symm⟩
  | fsPoll =>
    simp only [afterCommand, hstate, hexpired]
    split
    · exact ⟨rfl, hstart, rfl⟩
    · exact ⟨hstate, hstart, rfl⟩
  | fsPollByte b =>
    simp only [afterCommand, hstate, hexpired]
    split
    · split
      · exact ⟨rfl, hstart, rfl⟩
      · exact consumeByte_sameFs (s := defaultConsumed s) (s' := defaultConsumed s') hcfg hnow hstate hstart b
    · exact ⟨hstate, hstart, rfl⟩

/-! ### The fault bits -/

/-- A command keeps `fault`, but for a CK_BYTE at `ck_count = 30`, which sets bit 1 (R87, R99). -/
theorem afterCommand_fault_cases (i : Instr) (s : State) :
    (afterCommand i s).fault = s.fault ∨
      (((∃ b, i = .ckByte b) ∧ s.ckCount = 30) ∧ (afterCommand i s).fault = s.fault ||| 0b10#2) := by
  cases i with
  | nop | fsArm | ckInit | start => exact .inl rfl
  | fsPoll => left; obtain ⟨_, _, h⟩ | ⟨_, h⟩ := afterCommand_fsPoll_cases s <;> rw [h] <;> rfl
  | fsPollByte b =>
    left
    obtain ⟨_, h⟩ | ⟨_, _, h⟩ | ⟨_, _, h⟩ := afterCommand_fsPollByte_cases b s <;> rw [h]
    · rfl
    · rfl
    · exact consumeByte_fault b _
  | ckByte b =>
    obtain ⟨_, h⟩ | ⟨_, h⟩ | ⟨_, h⟩ | ⟨h30, h⟩ := afterCommand_ckByte_cases b s <;> rw [h]
    case inr.inr.inr => exact .inr ⟨⟨⟨b, rfl⟩, h30⟩, rfl⟩
    all_goals exact .inl rfl

/-- Every input but a reset only adds bits to `fault` (R21). -/
theorem afterEvent_fault_of_not_reset {e : HostEvent} (h : isReset e = false) (s : State) :
    ∃ bits, (afterEvent e s).fault = s.fault ||| bits := by
  obtain ⟨rfl, _⟩ | ⟨_, nowMs, i, _, _, he⟩ | ⟨_, _, _, _, _, he⟩ := afterEvent_cases e s
  · simp [isReset] at h
  · obtain hf | ⟨_, hf⟩ := afterCommand_fault_cases i (sampleNow nowMs s)
    · exact ⟨0#2, by simp [he, hf]⟩
    · exact ⟨0b10#2, by simp [he, hf]⟩
  · exact ⟨faultMask .illegalCmd, by simp [he]⟩

end Sys2Proof.Machine
end

section
/-! Frames and faults: what each command leaves (R14), that the two units share no register (D25), and that no input
but a reset clears a fault bit (R21). -/

namespace Sys2Proof.Machine

/-- Settles O48, register by register from the lemmas on who writes each. -/
theorem commandsWriteOnlyTheirRegisters : Obligations.CommandsWriteOnlyTheirRegisters := by
  intro i s
  refine ⟨_, exec_eq_afterCommand i s, by simp, by simp, by simp, ?state, ?start,
    fun h => afterCommand_fsConsumed_of_not_pollByte h s, ?ck, ?fault⟩
  case state =>
    rintro (rfl | rfl | ⟨b, rfl⟩)
    · rfl
    · rfl
    · exact (afterCommand_ckByte_sameFs b s).1
  case start =>
    intro h
    obtain hkept | ⟨_, harm | ⟨⟨b, rfl⟩, hhunt, hsynced, hpolicy⟩⟩ := afterCommand_fsTStart_cases i s
    · exact hkept
    · obtain rfl | rfl | rfl | ⟨_, rfl⟩ | ⟨⟨_, rfl⟩, _⟩ := h <;> simp [isArm] at harm
    · obtain hshared | hne | hwas : s.cfg.deadlinePolicy = .shared ∨
          (afterCommand (.fsPollByte b) s).fsState ≠ .synced ∨ s.fsState = .synced := by simpa using h
      · simp [hshared] at hpolicy
      · exact absurd hsynced hne
      · simp [hwas, hunting] at hhunt
  case ck =>
    intro h
    have hnone : ckActionOf i = none := by obtain rfl | rfl | rfl | ⟨b, rfl⟩ := h <;> rfl
    simpa [hnone, ckEffect] using afterCommand_sameCk_ckEffect i s
  case fault =>
    intro h
    exact (afterCommand_fault_cases i s).resolve_right fun hoverrun => h hoverrun.1

/-- Settles O50: the FS registers after a command are a function of the FS side, the CK registers of the CK side. -/
theorem unitsShareNoRegister : Obligations.UnitsShareNoRegister := by
  intro i s s'
  refine ⟨_, _, exec_eq_afterCommand i s, exec_eq_afterCommand i s', ?fs, ?ck⟩
  case fs => exact fun hcfg hnow hstate hstart => afterCommand_sameFs hcfg hnow hstate hstart i
  case ck =>
    intro h
    exact (afterCommand_sameCk_ckEffect i s).trans
      ((ckEffect_sameCk h _).trans (afterCommand_sameCk_ckEffect i s').symm)

/-- A bit that is set stays set when bits are added. -/
theorem and_or_eq_of_and_eq {n : Nat} {f g : BitVec n} (h : f &&& g = f) (bits : BitVec n) :
    f &&& (g ||| bits) = f := by
  ext j hj
  have hbit : (f[j] && g[j]) = f[j] := by rw [← BitVec.getElem_and, h]
  rw [BitVec.getElem_and, BitVec.getElem_or, Bool.and_or_distrib_left, hbit]
  cases f[j] <;> rfl

/-- Settles O46, by induction over the inputs: each only adds bits. -/
theorem faultBitsAreSticky : Obligations.FaultBitsAreSticky := by
  refine ⟨fun s es hes => ⟨_, applyEvents_eq es s, ?_⟩, fun s => ⟨_, applyEvent_eq .reset s, rfl⟩⟩
  refine afterEvents_induct (P := fun t => s.fault &&& t.fault = s.fault) ?_ es s hes BitVec.and_self
  intro e t he ht
  obtain ⟨bits, hbits⟩ := afterEvent_fault_of_not_reset he t
  rw [hbits]
  exact and_or_eq_of_and_eq ht bits

end Sys2Proof.Machine
end

section
/-! The true time since the arm (R25, R107, R118): the sample follows the host's clock, and `fs_t_start` stands. -/

namespace Sys2Proof.Machine

/-- R107: below the wrap the modular difference of two samples is the true difference of the counts. -/
theorem tickSub_sampleClock {c : Config} {startMs nowMs : Nat} (hle : startMs ≤ nowMs)
    (hlt : nowMs - startMs < 2 ^ c.tickBits) :
    tickSub c.tickBits (sampleClock c nowMs) (sampleClock c startMs) = nowMs - startMs := by
  have hcast : ((tickSub c.tickBits (sampleClock c nowMs) (sampleClock c startMs) : Nat) : Int) =
      ((nowMs - startMs : Nat) : Int) := by
    calc _ = ((nowMs : Int) % (2 ^ c.tickBits : Nat) - (startMs : Int) % (2 ^ c.tickBits : Nat)) %
          (2 ^ c.tickBits : Nat) := by simp only [tickSub_cast, sampleClock, Int.natCast_emod]
      _ = ((nowMs : Int) - startMs) % (2 ^ c.tickBits : Nat) := (Int.sub_emod _ _ _).symm
      _ = ((nowMs - startMs : Nat) : Int) := by
        rw [← Int.ofNat_sub hle]
        exact_mod_cast Nat.mod_eq_of_lt hlt
  exact_mod_cast hcast

/-- A count that never decreases ends at or after its start. -/
theorem le_lastClock {last : Nat} {es : List HostEvent} (h : clockMonotone last es = true) :
    last ≤ lastClock last es := by
  induction es generalizing last with
  | nil => exact le_rfl
  | cons e es ih =>
    cases e with
    | reset => exact ih h
    | command w nowMs =>
      obtain ⟨hle, hrest⟩ : last ≤ nowMs ∧ clockMonotone nowMs es = true := by
        simpa [clockMonotone] using h
      exact hle.trans (ih hrest)

/-- A command's NOW is the sample of its count, legal or not. -/
theorem afterEvent_command_now (w : Word) (nowMs : Nat) (s : State) :
    (afterEvent (.command w nowMs) s).now = sampleClock s.cfg nowMs := by
  simp only [afterEvent]
  split <;> simp

/-- `now` is the sample of the last command's count, resets between included. -/
theorem afterEvents_now {last : Nat} {s : State} (h : s.now = sampleClock s.cfg last) (es : List HostEvent) :
    (afterEvents es s).now = sampleClock s.cfg (lastClock last es) := by
  induction es generalizing last s with
  | nil => exact h
  | cons e es ih =>
    cases e with
    | reset => exact ih (s := resetStep s) h
    | command w nowMs =>
      have hsample : (afterEvent (.command w nowMs) s).now =
          sampleClock (afterEvent (.command w nowMs) s).cfg nowMs := by
        rw [afterEvent_command_now, afterEvent_cfg]
      have hrest := ih hsample
      rw [afterEvent_cfg] at hrest
      exact hrest

/-- An input brings an arm exactly when its word decodes to one. -/
theorem armsOrResets_of_decode_ok {w : Word} {i : Instr} (h : decode w = .ok i) (nowMs : Nat) :
    armsOrResets (.command w nowMs) = isArm i := by
  simp [armsOrResets, isReset, commandOf, h, Except.toOption]

/-- Nothing but an arm or a reset can write `fs_t_start`: no sync re-arms it under SHARED, none can come after the
hunt (R71, R76). -/
def State.deadlineStands (s : State) : Prop :=
  s.cfg.deadlinePolicy = .shared ∨ hunting s.fsState = false

theorem afterCommand_fsTStart_of_deadlineStands {i : Instr} {s : State} (harm : isArm i = false)
    (hs : s.deadlineStands) : (afterCommand i s).fsTStart = s.fsTStart := by
  obtain hkept | ⟨_, h | ⟨_, hhunt, _, hpolicy⟩⟩ := afterCommand_fsTStart_cases i s
  · exact hkept
  · simp [harm] at h
  · obtain hshared | hover := hs
    · simp [hshared] at hpolicy
    · simp [hover] at hhunt

theorem afterCommand_deadlineStands {i : Instr} {s : State} (harm : isArm i = false)
    (hs : s.deadlineStands) : (afterCommand i s).deadlineStands := by
  obtain hshared | hover := hs
  · exact .inl (by simpa using hshared)
  · exact .inr (by rw [afterCommand_fsState_of_not_hunting harm hover, hover])

/-- While it stands, any input but an arm or a reset keeps `fs_t_start`, and it stands on. -/
theorem afterEvent_deadlineStands {e : HostEvent} {s : State} (he : armsOrResets e = false)
    (hs : s.deadlineStands) : (afterEvent e s).fsTStart = s.fsTStart ∧ (afterEvent e s).deadlineStands := by
  obtain ⟨rfl, _⟩ | ⟨_, nowMs, i, rfl, hdecode, h⟩ | ⟨_, _, _, _, _, h⟩ := afterEvent_cases e s
  · simp [armsOrResets, isReset] at he
  · rw [armsOrResets_of_decode_ok hdecode] at he
    have hs' : (sampleNow nowMs s).deadlineStands := hs
    rw [h]
    exact ⟨afterCommand_fsTStart_of_deadlineStands he hs', afterCommand_deadlineStands he hs'⟩
  · rw [h]
    exact ⟨rfl, hs⟩

theorem afterEvents_cfg (es : List HostEvent) (s : State) : (afterEvents es s).cfg = s.cfg := by
  induction es generalizing s with
  | nil => rfl
  | cons e es ih => exact (ih _).trans (afterEvent_cfg e s)

/-- Settles O36: NOW is the sample of the last count, `fs_t_start` still that of the arm, and R107 does the rest. -/
theorem elapsedIsTrueUnderAMonotoneClock : Obligations.ElapsedIsTrueUnderAMonotoneClock := by
  intro s armMs es hstart hnow hstands hes hmono hlt
  refine ⟨_, applyEvents_eq es s, ?_⟩
  have hkept : (afterEvents es s).fsTStart = s.fsTStart ∧ (afterEvents es s).deadlineStands := by
    refine afterEvents_induct (P := fun t => t.fsTStart = s.fsTStart ∧ t.deadlineStands) ?_ es s hes
      ⟨rfl, hstands⟩
    intro e t he ⟨ht, hst⟩
    obtain ⟨hkeep, hstill⟩ := afterEvent_deadlineStands he hst
    exact ⟨hkeep.trans ht, hstill⟩
  calc (presented (afterEvents es s)).fsElapsed
      = tickSub (afterEvents es s).cfg.tickBits (afterEvents es s).now (afterEvents es s).fsTStart := rfl
    _ = tickSub s.cfg.tickBits (sampleClock s.cfg (lastClock armMs es)) (sampleClock s.cfg armMs) := by
        rw [afterEvents_cfg, afterEvents_now hnow, hkept.1, hstart]
    _ = lastClock armMs es - armMs := tickSub_sampleClock (le_lastClock hmono) hlt

end Sys2Proof.Machine
end

section
/-! The invariants: the registers of R28, the widths of R7 and R16, and the bound of R29. Reset meets them, and every
step keeps them. -/

namespace Sys2Proof.Machine

theorem fsCode_le_four (st : FsState) : (fsCode st).toNat ≤ 4 := by cases st <;> decide

/-- The sum's positions count up by one. -/
theorem sumByte_ckCount_val {s : State} (h : s.ckCount.val ≤ 27) (b : Byte) :
    (sumByte b s).ckCount.val = s.ckCount.val + 1 :=
  Fin.val_add_one_of_lt (Fin.lt_def.mpr (show s.ckCount.val < 30 by omega))

/-! ### The registers (R28) -/

/-- R28 speaks of the CK registers; the FS state is one of the five by its type (log entry 7). -/
theorem registersLegal_of_sameCk {s t : State} (h : t.sameCk s) (hs : s.registersLegal) : t.registersLegal := by
  obtain ⟨_, hcount, hexp⟩ := h
  obtain ⟨_, _, hunwritten, hhigh⟩ := hs
  exact ⟨fsCode_le_four _, by omega, by rwa [hcount, hexp], by rwa [hcount, hexp]⟩

theorem clearCk_registersLegal (s : State) : (clearCk s).registersLegal :=
  ⟨fsCode_le_four _, by simp, by simp, by simp⟩

/-- Each position of CK_BYTE writes the bits of `ck_exp` that its new count stands for. -/
theorem ckByte_registersLegal (b : Byte) (s : State) (hs : s.registersLegal) :
    (afterCommand (.ckByte b) s).registersLegal := by
  obtain ⟨_, _, hunwritten, _⟩ := id hs
  obtain ⟨h27, h⟩ | ⟨h28, h⟩ | ⟨_, h⟩ | ⟨_, h⟩ := afterCommand_ckByte_cases b s <;> rw [h]
  · have hzero : s.ckExp = 0x0000#16 := hunwritten (by omega)
    have hcount : (sumByte b (defaultConsumed s)).ckCount.val = s.ckCount.val + 1 := sumByte_ckCount_val h27 b
    exact ⟨fsCode_le_four _, by omega, fun _ => hzero, by omega⟩
  · have hzero : s.ckExp = 0x0000#16 := hunwritten (by simp [h28])
    have hlow : lowByte (bigEndian16 b (lowByte s.ckExp)) = 0x00#8 := by rw [lowByte_bigEndian16, hzero]; rfl
    exact ⟨fsCode_le_four _, by simp, by simp, fun _ => hlow⟩
  · exact ⟨fsCode_le_four _, by simp, by simp, by simp⟩
  · exact registersLegal_of_sameCk (.refl s) hs

/-! ### The widths (R7, R16) -/

theorem sampleClock_lt (c : Config) (nowMs : Nat) : sampleClock c nowMs < 2 ^ c.tickBits :=
  Nat.mod_lt _ (Nat.two_pow_pos _)

/-- `fs_t_start` is only ever written with a sample. -/
theorem afterCommand_widthsLegal (i : Instr) {s : State} (hs : s.widthsLegal) :
    (afterCommand i s).widthsLegal := by
  obtain ⟨hcfg, hstart, hnow⟩ := hs
  refine ⟨by simpa using hcfg, ?_, by simpa using hnow⟩
  rw [afterCommand_cfg]
  obtain h | ⟨h, _⟩ := afterCommand_fsTStart_cases i s <;> rwa [h]

theorem sampleNow_widthsLegal (nowMs : Nat) {s : State} (hs : s.widthsLegal) : (sampleNow nowMs s).widthsLegal := by
  obtain ⟨hcfg, hstart, _⟩ := hs
  exact ⟨hcfg, hstart, sampleClock_lt _ _⟩

theorem afterEvent_widthsLegal (e : HostEvent) (s : State) (hs : s.widthsLegal) :
    (afterEvent e s).widthsLegal := by
  obtain ⟨_, h⟩ | ⟨_, nowMs, i, _, _, h⟩ | ⟨_, nowMs, _, _, _, h⟩ := afterEvent_cases e s <;> rw [h]
  · obtain ⟨hcfg, _, hnow⟩ := hs
    exact ⟨hcfg, Nat.two_pow_pos _, hnow⟩
  · exact afterCommand_widthsLegal i (sampleNow_widthsLegal nowMs hs)
  · have hsampled : (sampleNow nowMs s).widthsLegal := sampleNow_widthsLegal nowMs hs
    exact hsampled

/-- Settles O52: the registers by what each position of CK_BYTE writes, the widths by who writes `fs_t_start`. -/
theorem everyStepKeepsTheInvariant : Obligations.EveryStepKeepsTheInvariant := by
  intro s t ⟨hregisters, hwidths⟩ h
  exact ⟨step_keeps_of_ck registersLegal_of_sameCk clearCk_registersLegal ckByte_registersLegal hregisters h,
    step_keeps (fun _ _ hs => hs) afterEvent_widthsLegal hwidths h⟩

/-! ### The sum (R29) -/

theorem sumBounded_of_sameCk {s t : State} (h : t.sameCk s) (hs : s.sumBounded) : t.sumBounded := by
  obtain ⟨hsum, hcount, _⟩ := h
  rwa [State.sumBounded, hsum, hcount]

theorem clearCk_sumBounded (s : State) : (clearCk s).sumBounded := by
  simp [State.sumBounded, seed_eq]

/-- The largest sum of a frame: the seed and 28 bytes of 255. -/
theorem ckSum_le_of_sumBounded {s : State} (hs : s.sumBounded) : s.ckSum.toNat ≤ 7283 := by
  have := hs
  omega

/-- Under the bound the 16-bit addition of a byte is exact. -/
theorem sumByte_toNat_of_sumBounded {s : State} (hs : s.sumBounded) (b : Byte) :
    (sumByte b s).ckSum.toNat = s.ckSum.toNat + b.toNat := by
  have hsum := ckSum_le_of_sumBounded hs
  have hb := b.isLt
  calc (add16 s.ckSum (zext16 b)).toNat = (s.ckSum.toNat + b.toNat % 65536) % 65536 := by
        simp [add16, zext16, BitVec.toNat_add, BitVec.toNat_setWidth]
    _ = s.ckSum.toNat + b.toNat := by omega

/-- A summed byte raises the bound by 255; the other positions leave the sum. -/
theorem ckByte_sumBounded (b : Byte) (s : State) (hs : s.sumBounded) :
    (afterCommand (.ckByte b) s).sumBounded := by
  obtain ⟨h27, h⟩ | ⟨h28, h⟩ | ⟨h29, h⟩ | ⟨_, h⟩ := afterCommand_ckByte_cases b s <;> rw [h]
  · have hsum : (sumByte b (defaultConsumed s)).ckSum.toNat = s.ckSum.toNat + b.toNat :=
      sumByte_toNat_of_sumBounded hs b
    have hcount : (sumByte b (defaultConsumed s)).ckCount.val = s.ckCount.val + 1 := sumByte_ckCount_val h27 b
    have hb := b.isLt
    rw [State.sumBounded, hsum, hcount]
    have := hs
    omega
  · simpa [State.sumBounded, h28] using hs
  · simpa [State.sumBounded, h29] using hs
  · exact hs

/-- Settles O53: `ckByte_sumBounded` for the bound, and under it no addition reaches 65536. -/
theorem sumNeverWrapsInAFrame : Obligations.SumNeverWrapsInAFrame := by
  refine ⟨fun s t => step_keeps_of_ck sumBounded_of_sameCk clearCk_sumBounded ckByte_sumBounded,
    fun _ => ckSum_le_of_sumBounded, fun s b hs h27 => ⟨_, exec_eq_afterCommand (.ckByte b) s, ?_⟩⟩
  obtain ⟨_, h⟩ | ⟨h28, _⟩ | ⟨h29, _⟩ | ⟨h30, _⟩ := afterCommand_ckByte_cases b s
  · rw [h]
    exact sumByte_toNat_of_sumBounded (s := defaultConsumed s) hs b
  · simp [h28] at h27
  · simp [h29] at h27
  · simp [h30] at h27

/-! ### Reset -/

theorem resetFor_inv {c : Config} (hc : c.wf) : (State.resetFor c).inv :=
  ⟨registersLegal_of_sameCk (resetFor_sameCk_clearCk c .reset) (clearCk_registersLegal _),
    hc, Nat.two_pow_pos _, Nat.two_pow_pos _⟩

/-- Settles O51: the CK is as after a clear, and both time values are 0. -/
theorem resetMeetsTheInvariants : Obligations.ResetMeetsTheInvariants :=
  ⟨fun c hc => ⟨resetFor_inv hc,
    sumBounded_of_sameCk (resetFor_sameCk_clearCk c .reset) (clearCk_sumBounded _)⟩,
    resetFor_inv (c := Config.default) (by decide)⟩

end Sys2Proof.Machine
end

section
/-! The outputs (R24 to R27). -/

namespace Sys2Proof.Machine

/-- Settles O13, output by output: `fs_elapsed` by R9's difference, `ck_count` because five bits hold 30. -/
theorem outputsAreTheTable : Obligations.OutputsAreTheTable := by
  intro s now
  refine ⟨?status, tickSub_cast _ _ _, ?expired, decide_eq_true_iff, decide_eq_true_iff, rfl, ?count, rfl, rfl,
    decide_eq_true_iff, ?isMatch, ?isMismatch, rfl⟩
  case status => rfl
  case expired => rfl
  case count =>
    have := s.ckCount.isLt
    exact Nat.mod_eq_of_lt (by omega)
  case isMatch => simp [outputs, ckMatch, ckDone]
  case isMismatch => simp [outputs, ckMismatch, ckDone]

end Sys2Proof.Machine
end

section
/-! The words a host issues (R51): the decoder reads back the command each was encoded from. -/

namespace Sys2Proof.Machine

/-- The word of a command decodes to it, format Z and format B alike (R49, R51). -/
theorem decode_encode (i : Instr) : decode (encode i) = .ok i := by
  have hfields : Laws.EncodeFields.Statement i := Laws.fields_of_append _ _
  obtain ⟨hop, hrsv, hdata⟩ := hfields
  rw [decode, if_pos hrsv, hop]
  cases i with
  | fsPollByte | ckByte => simp [opcodeOf, formatB, hdata, dataOf]
  | _ => simp [opcodeOf, formatZ, hdata, dataOf]

/-- The input `@nowMs i` brings the command `i`. -/
@[simp] theorem commandOf_commandAt (nowMs : Nat) (i : Instr) : commandOf (commandAt nowMs i) = some i := by
  simp [commandAt, commandOf, decode_encode, Except.toOption]

end Sys2Proof.Machine
end

section
/-! What the FS consumes, and what its detector knows of it (R61 to R65): the effect of an input on `fs_state` and
`fs_consumed`, said once, and the relation of `fs_state` to the bytes consumed since the hunt began. -/

namespace Sys2Proof.Machine

/-- All a command that does not arm can do to `fs_state` and `fs_consumed`: take no byte and keep the state or end the
hunt in TIMEOUT, or take the offered byte in the hunt (R70, R71, R74). -/
theorem afterCommand_fsState_cases {i : Instr} (harm : isArm i = false) (s : State) :
    ((afterCommand i s).fsConsumed = false ∧ ((afterCommand i s).fsState = s.fsState ∨
        hunting s.fsState = true ∧ (afterCommand i s).fsState = .timeout)) ∨
      ∃ b, offeredByteOf i = some b ∧ hunting s.fsState = true ∧ (afterCommand i s).fsConsumed = true ∧
        (afterCommand i s).fsState = detectorNext s.cfg.resyncPolicy s.fsState b := by
  cases i with
  | nop | ckInit => exact .inl ⟨rfl, .inl rfl⟩
  | fsArm | start => simp [isArm] at harm
  | ckByte b =>
    obtain ⟨hstate, _, hconsumed⟩ := afterCommand_ckByte_sameFs b s
    exact .inl ⟨hconsumed, .inl hstate⟩
  | fsPoll =>
    obtain ⟨hhunt, _, h⟩ | ⟨_, h⟩ := afterCommand_fsPoll_cases s <;> rw [h]
    · exact .inl ⟨rfl, .inr ⟨hhunt, rfl⟩⟩
    · exact .inl ⟨rfl, .inl rfl⟩
  | fsPollByte b =>
    obtain ⟨_, h⟩ | ⟨hhunt, _, h⟩ | ⟨hhunt, _, h⟩ := afterCommand_fsPollByte_cases b s <;> rw [h]
    · exact .inl ⟨rfl, .inl rfl⟩
    · exact .inl ⟨rfl, .inr ⟨hhunt, rfl⟩⟩
    · exact .inr ⟨b, rfl, hhunt, consumeByte_fsConsumed b _, consumeByte_fsState b _⟩

/-- The same for an input that neither arms nor resets; an illegal word takes no byte and keeps the state (R53). -/
theorem afterEvent_fsState_cases {e : HostEvent} (he : armsOrResets e = false) (s : State) :
    ((afterEvent e s).fsConsumed = false ∧ ((afterEvent e s).fsState = s.fsState ∨
        hunting s.fsState = true ∧ (afterEvent e s).fsState = .timeout)) ∨
      ∃ b, polledByte e = some b ∧ hunting s.fsState = true ∧ (afterEvent e s).fsConsumed = true ∧
        (afterEvent e s).fsState = detectorNext s.cfg.resyncPolicy s.fsState b := by
  obtain ⟨rfl, _⟩ | ⟨w, nowMs, i, rfl, hdecode, h⟩ | ⟨_, _, _, _, _, h⟩ := afterEvent_cases e s
  · simp [armsOrResets, isReset] at he
  · rw [armsOrResets_of_decode_ok hdecode] at he
    have hpolled : polledByte (.command w nowMs) = offeredByteOf i := by
      simp [polledByte, commandOf, hdecode, Except.toOption]
    rw [h, hpolled]
    exact afterCommand_fsState_cases he (sampleNow nowMs s)
  · rw [h]
    exact .inl ⟨rfl, .inl rfl⟩

/-- What one input adds to the bytes consumed (R34): the byte it offers, if the step set `fs_consumed`. -/
def takenBytes (e : HostEvent) (s : State) : List Byte :=
  if (afterEvent e s).fsConsumed then (polledByte e).toList else []

theorem consumedBytes_cons (e : HostEvent) (es : List HostEvent) (s : State) :
    consumedBytes (e :: es) s = takenBytes e s ++ consumedBytes es (afterEvent e s) := by
  simp only [consumedBytes, applyEvent_eq, takenBytes]

/-- The marker (R8). -/
def marker : List Byte := [magic0, magic1]

/-- A byte completes a marker exactly if it is the second marker byte and follows the first. -/
theorem marker_infix_concat_iff (c : List Byte) (b : Byte) :
    marker <:+: c ++ [b] ↔ (b = magic1 ∧ c.getLast? = some magic0) ∨ marker <:+: c := by
  have hsuffix : marker <:+ c ++ [b] ↔ b = magic1 ∧ c.getLast? = some magic0 := by
    constructor
    · rintro ⟨before, h⟩
      have hsplit : (before ++ [magic0]) ++ [magic1] = c ++ [b] := by simpa [marker] using h
      obtain ⟨rfl, hb⟩ := List.append_inj' hsplit rfl
      exact ⟨by simpa using hb.symm, List.getLast?_concat⟩
    · rintro ⟨rfl, hlast⟩
      obtain ⟨before, rfl⟩ := List.getLast?_eq_some_iff.mp hlast
      exact ⟨before, by simp [marker]⟩
  rw [List.infix_concat_iff, hsuffix]

/-- What `fs_state` says of the bytes `c` consumed since the hunt began in HUNT (R61, R62, R64): SYNCED was reached by
the marker, GOT42 means that 0x42 came last. Under SLIDING also conversely: HUNT means that 0x42 did not
come last, and outside SYNCED no marker was passed. -/
structure MarkerHistory (p : ResyncPolicy) (st : FsState) (c : List Byte) : Prop where
  synced : st = .synced → ∃ before, c = before ++ marker ∧ (p = .sliding → ¬marker <:+: before ++ [magic0])
  got42 : st = .got42 → c.getLast? = some magic0
  hunt : p = .sliding → st = .hunt → c.getLast? ≠ some magic0
  noMarker : p = .sliding → st ≠ .synced → ¬marker <:+: c

namespace MarkerHistory
variable {p : ResyncPolicy} {st : FsState} {c : List Byte}

theorem hunt_nil (p : ResyncPolicy) : MarkerHistory p .hunt [] where
  synced h := nomatch h
  got42 h := nomatch h
  hunt _ _ := nofun
  noMarker _ _ := by simp [marker]

theorem noMarker_of_hunting (h : MarkerHistory p st c) (hhunt : hunting st = true) (hp : p = .sliding) :
    ¬marker <:+: c :=
  h.noMarker hp (by rintro rfl; simp [hunting] at hhunt)

theorem timeout_of_hunting (h : MarkerHistory p st c) (hhunt : hunting st = true) : MarkerHistory p .timeout c where
  synced h := nomatch h
  got42 h := nomatch h
  hunt _ h := nomatch h
  noMarker hp _ := h.noMarker_of_hunting hhunt hp

/-- Taking a byte in the hunt keeps the relation, by the cell of the detector's table the byte falls in. -/
theorem detectorNext_concat (h : MarkerHistory p st c) (hhunt : hunting st = true) (b : Byte) :
    MarkerHistory p (detectorNext p st b) (c ++ [b]) := by
  have hne : magic0 ≠ magic1 := by decide
  have hpassed := h.noMarker_of_hunting hhunt
  obtain ⟨hnext, rfl, rfl⟩ | ⟨hnext, rfl, _⟩ | ⟨hnext, hnot, hrepeat⟩ := detectorNext_cases p st b hhunt <;>
    rw [hnext]
  case inl =>
    obtain ⟨before, rfl⟩ := List.getLast?_eq_some_iff.mp (h.got42 rfl)
    exact ⟨fun _ => ⟨before, by simp [marker], hpassed⟩, nofun, nofun, fun _ hs => absurd rfl hs⟩
  case inr.inl =>
    refine ⟨nofun, fun _ => List.getLast?_concat, nofun, fun hp _ => ?_⟩
    rw [marker_infix_concat_iff]
    rintro (⟨hb, _⟩ | hc)
    · exact hne hb
    · exact hpassed hp hc
  case inr.inr =>
    refine ⟨nofun, nofun, fun hp _ hlast => ?last, fun hp _ => ?passed⟩
    case last =>
      have hb : b = magic0 := by simpa using hlast
      obtain ⟨_, hstrict⟩ := hrepeat hb
      exact absurd (hp.symm.trans hstrict) nofun
    case passed =>
      rw [marker_infix_concat_iff]
      rintro (⟨rfl, hlast⟩ | hc)
      · cases st with
        | hunt => exact h.hunt hp rfl hlast
        | got42 => exact hnot ⟨rfl, rfl⟩
        | idle | synced | timeout => simp [hunting] at hhunt
      · exact hpassed hp hc

/-- An input that neither arms nor resets keeps the relation, `c` growing by the byte it consumes, if any. -/
theorem afterEvent_takenBytes {e : HostEvent} {s : State} (he : armsOrResets e = false)
    (h : MarkerHistory s.cfg.resyncPolicy s.fsState c) :
    MarkerHistory s.cfg.resyncPolicy (afterEvent e s).fsState (c ++ takenBytes e s) := by
  obtain ⟨hconsumed, hstate⟩ | ⟨b, hpolled, hhunt, hconsumed, hstate⟩ := afterEvent_fsState_cases he s
  · have htaken : takenBytes e s = [] := by simp [takenBytes, hconsumed]
    rw [htaken, List.append_nil]
    obtain hkept | ⟨hhunt, htimeout⟩ := hstate
    · rwa [hkept]
    · rw [htimeout]
      exact h.timeout_of_hunting hhunt
  · have htaken : takenBytes e s = [b] := by simp [takenBytes, hconsumed, hpolled]
    rw [htaken, hstate]
    exact h.detectorNext_concat hhunt b

/-- Any inputs but arms and resets keep the relation, `c` growing by the bytes they consume. -/
theorem afterEvents_consumedBytes {es : List HostEvent} (hes : ∀ e ∈ es, armsOrResets e = false) {s : State}
    (h : MarkerHistory s.cfg.resyncPolicy s.fsState c) :
    MarkerHistory s.cfg.resyncPolicy (afterEvents es s).fsState (c ++ consumedBytes es s) := by
  induction es generalizing s c with
  | nil => simpa [consumedBytes, afterEvents] using h
  | cons e es ih =>
    obtain ⟨he, hes⟩ := List.forall_mem_cons.mp hes
    rw [consumedBytes_cons, ← List.append_assoc]
    have hnext := h.afterEvent_takenBytes he
    rw [← afterEvent_cfg e s] at hnext ⊢
    exact ih hes hnext

end MarkerHistory

end Sys2Proof.Machine
end

section
/-! The polling loop (R33 to R35, R117, R122): its polls, the stream after each, and what the whole hunt consumes. -/

namespace Sys2Proof.Machine

/-- A poll offers the FS the byte the host read, if it read one (R33). -/
@[simp] theorem polledByte_pollInput (turn : PollTurn) (stream : List Byte) :
    polledByte (pollInput turn stream) = offered turn stream := by
  rw [polledByte, pollInput, commandOf_commandAt]
  cases offered turn stream <;> rfl

theorem armsOrResets_pollInput (turn : PollTurn) (stream : List Byte) :
    armsOrResets (pollInput turn stream) = false := by
  rw [armsOrResets, pollInput, commandOf_commandAt]
  cases offered turn stream <;> rfl

/-- One poll loses no byte: what it takes is the head of the stream, and what it does not take stays (R34, R35). -/
theorem takenBytes_append_streamAfter (turn : PollTurn) (s : State) (stream : List Byte) :
    takenBytes (pollInput turn stream) s ++ streamAfter stream (afterEvent (pollInput turn stream) s) = stream := by
  obtain ⟨hconsumed, _⟩ | ⟨b, hpolled, _, hconsumed, _⟩ :=
    afterEvent_fsState_cases (armsOrResets_pollInput turn stream) s
  · simp [takenBytes, streamAfter, hconsumed]
  · obtain ⟨_, hhead⟩ : turn.delivers = true ∧ stream.head? = some b := by simpa [offered] using hpolled
    obtain ⟨rest, rfl⟩ := List.head?_eq_some_iff.mp hhead
    simp [takenBytes, streamAfter, hconsumed, hpolled]

/-- While the FS hunts, the loop polls and goes on with the stream the poll leaves. -/
theorem huntLoop_cons_of_hunting {s : State} (h : hunting s.fsState = true) (turn : PollTurn)
    (turns : List PollTurn) (stream : List Byte) :
    huntLoop (turn :: turns) s stream =
      huntLoop turns (afterEvent (pollInput turn stream) s)
        (streamAfter stream (afterEvent (pollInput turn stream) s)) := by
  simp only [huntLoop, h, if_true, hostPoll_eq, andThen]

theorem huntInputs_cons_of_hunting {s : State} (h : hunting s.fsState = true) (turn : PollTurn)
    (turns : List PollTurn) (stream : List Byte) :
    huntInputs (turn :: turns) s stream =
      pollInput turn stream :: huntInputs turns (afterEvent (pollInput turn stream) s)
        (streamAfter stream (afterEvent (pollInput turn stream) s)) := by
  simp only [huntInputs, h, if_true, hostPoll_eq]

/-- Once the hunt is over the loop issues nothing and leaves state and stream alone. -/
theorem huntLoop_of_not_hunting {s : State} (h : hunting s.fsState = false) (turns : List PollTurn)
    (stream : List Byte) : huntLoop turns s stream = .next (s, stream) := by
  cases turns <;> simp [huntLoop, h]

theorem huntInputs_of_not_hunting {s : State} (h : hunting s.fsState = false) (turns : List PollTurn)
    (stream : List Byte) : huntInputs turns s stream = [] := by
  cases turns <;> simp [huntInputs, h]

/-- The loop issues polls only. -/
theorem armsOrResets_of_mem_huntInputs (turns : List PollTurn) (s : State) (stream : List Byte) :
    ∀ e ∈ huntInputs turns s stream, armsOrResets e = false := by
  induction turns generalizing s stream with
  | nil => simp [huntInputs]
  | cons turn turns ih =>
    cases h : hunting s.fsState with
    | false => simp [huntInputs_of_not_hunting h]
    | true =>
      rw [huntInputs_cons_of_hunting h]
      exact List.forall_mem_cons.mpr ⟨armsOrResets_pollInput turn stream, ih _ _⟩

/-- The loop loses no byte, by induction over its turns: it ends where its polls lead, and the stream it was given is
what they consumed and then what it leaves (R34, R35, R122). -/
theorem huntLoop_loses_no_byte (turns : List PollTurn) (s : State) (stream : List Byte) :
    ∃ rest, huntLoop turns s stream = .next (afterEvents (huntInputs turns s stream) s, rest) ∧
      stream = consumedBytes (huntInputs turns s stream) s ++ rest := by
  induction turns generalizing s stream with
  | nil => exact ⟨stream, rfl, rfl⟩
  | cons turn turns ih =>
    cases h : hunting s.fsState with
    | false =>
      rw [huntLoop_of_not_hunting h, huntInputs_of_not_hunting h]
      exact ⟨stream, rfl, rfl⟩
    | true =>
      rw [huntLoop_cons_of_hunting h, huntInputs_cons_of_hunting h]
      obtain ⟨rest, hloop, hstream⟩ := ih (afterEvent (pollInput turn stream) s)
        (streamAfter stream (afterEvent (pollInput turn stream) s))
      refine ⟨rest, hloop, ?_⟩
      rw [consumedBytes_cons, List.append_assoc, ← hstream]
      exact (takenBytes_append_streamAfter turn s stream).symm

/-- Settles O32: the loop loses no byte, and its polls keep `MarkerHistory`, which says what a sync was reached by. -/
theorem huntLosesNoByteAndStopsAfterTheMarker : Obligations.HuntLosesNoByteAndStopsAfterTheMarker := by
  intro turns s stream
  obtain ⟨rest, hloop, hstream⟩ := huntLoop_loses_no_byte turns s stream
  refine ⟨_, rest, hloop, applyEvents_eq _ _, hstream, fun hhunt hsynced => ?_⟩
  have hstart : MarkerHistory s.cfg.resyncPolicy s.fsState [] := hhunt ▸ .hunt_nil _
  exact (hstart.afterEvents_consumedBytes (armsOrResets_of_mem_huntInputs turns s stream)).synced hsynced

end Sys2Proof.Machine
end

section
/-! The encoding (R49 to R52): a word is its three fields, so decoding and encoding are inverse to each other, and the
legal words are the words of the 517 commands. -/

namespace Sys2Proof.Machine

/-! ### The fields of a word -/

/-- A word is its fields OP, RSV and DATA in a row (R49). -/
theorem fields_append (w : Word) : opField w ++ rsvField w ++ dataField w = w := by
  calc opField w ++ rsvField w ++ dataField w
      = w.extractLsb' 8 8 ++ dataField w :=
        congrArg (· ++ dataField w) (BitVec.extractLsb'_append_extractLsb'_eq_extractLsb' rfl)
    _ = w.extractLsb' 0 16 := BitVec.extractLsb'_append_extractLsb'_eq_extractLsb' rfl
    _ = w := BitVec.extractLsb'_eq_self

/-- The fields of a command's word, whatever the command. -/
theorem encode_fields (i : Instr) : Laws.EncodeFields.Statement i := Laws.fields_of_append _ _

/-- A word with a command's fields is the command's word: no fourth field is left (R49, R54). -/
theorem encode_eq_iff (i : Instr) (w : Word) :
    encode i = w ↔ opField w = opcodeOf i ∧ rsvField w = 0#4 ∧ dataField w = dataOf i := by
  constructor
  · rintro rfl
    exact encode_fields i
  · rintro ⟨hop, hrsv, hdata⟩
    rw [← fields_append w, hop, hrsv, hdata]
    rfl

/-- A format Z command is read exactly where DATA is zero. -/
theorem formatZ_eq_ok_iff {i j : Instr} {w : Word} :
    formatZ i w = .ok j ↔ dataField w = 0#8 ∧ i = j := by
  unfold formatZ
  split <;> simp [*]

/-- A decoded command's fields are those of the word: opcodes 3 and 5 carry DATA, the other five find it zero, and any
other opcode is refused (R51, R52). -/
theorem fields_of_decode {w : Word} {i : Instr} (h : decode w = .ok i) :
    opField w = opcodeOf i ∧ rsvField w = 0#4 ∧ dataField w = dataOf i := by
  have op_eq {n : Nat} (hn : (opField w).toNat = n) : opField w = BitVec.ofNat 4 n := by
    rw [← hn, BitVec.ofNat_toNat, BitVec.setWidth_eq]
  unfold decode at h
  split at h
  case isFalse => simp at h
  case isTrue hrsv =>
    split at h
    case h_4 hop | h_6 hop =>
      obtain rfl := Except.ok.inj h
      exact ⟨op_eq hop, hrsv, rfl⟩
    case h_8 => simp at h
    case h_1 hop | h_2 hop | h_3 hop | h_5 hop | h_7 hop =>
      obtain ⟨hdata, rfl⟩ := formatZ_eq_ok_iff.mp h
      exact ⟨op_eq hop, hrsv, hdata⟩

/-- The decoder is the inverse of the encoder, both ways. -/
theorem decode_eq_ok_iff {w : Word} {i : Instr} : decode w = .ok i ↔ encode i = w := by
  constructor
  · exact fun h => (encode_eq_iff i w).mpr (fields_of_decode h)
  · rintro rfl
    exact decode_encode i

/-- The opcode table's 16 bits are the word itself (R9). -/
theorem tableWord_toNat (w : Word) : tableWord 16 w.toNat = w := by
  rw [tableWord, Nat.mod_eq_of_lt w.isLt, BitVec.ofNat_toNat, BitVec.setWidth_eq]

/-- Settles O5: `decode_encode`, and the table numbers the bits of the same word. -/
theorem decodeOfEncodeIsTheCommand : Obligations.DecodeOfEncodeIsTheCommand := by
  intro i _
  refine ⟨decode_encode i, ?_⟩
  rw [decodeTableWord, if_pos le_rfl, tableWord_toNat, decode_encode]
  rfl

/-- Settles O6: a decoded word has the fields of its command's word, and no other bits. -/
theorem encodeOfDecodeIsTheWord : Obligations.EncodeOfDecodeIsTheWord :=
  fun _ _ h => decode_eq_ok_iff.mp h

/-- Settles O4, word by word from the opcode map. -/
theorem opcodeMapWordsDecode : Obligations.OpcodeMapWordsDecode :=
  ⟨rfl, rfl, rfl, rfl, rfl, rfl, rfl, rfl, rfl, rfl⟩

/-! ### Legality (R52) -/

theorem legal_iff (w : Word) :
    legal w = true ↔ opField w ≤ 0x6#4 ∧ rsvField w = 0#4 ∧
      ((opField w = 0x3#4 ∨ opField w = 0x5#4) ∨ dataField w = 0#8) := by
  simp [legal, and_assoc]

/-- Every opcode up to 6 is a command's, at any byte in format B and at 0 in format Z (R51). -/
theorem exists_instr_of_legal_fields {op : BitVec 4} {data : Byte} (hop : op ≤ 0x6#4)
    (hdata : (op = 0x3#4 ∨ op = 0x5#4) ∨ data = 0#8) : ∃ i, opcodeOf i = op ∧ dataOf i = data := by
  have opcodes : ∀ op : BitVec 4, op ≤ 0x6#4 → (op = 0x3#4 ∨ op = 0x5#4) ∨
      op = 0x0#4 ∨ op = 0x1#4 ∨ op = 0x2#4 ∨ op = 0x4#4 ∨ op = 0x6#4 := by decide
  obtain (rfl | rfl) | hformatZ := opcodes op hop
  · exact ⟨.fsPollByte data, rfl, rfl⟩
  · exact ⟨.ckByte data, rfl, rfl⟩
  · obtain rfl : data = 0#8 := by
      refine hdata.resolve_left ?_
      obtain rfl | rfl | rfl | rfl | rfl := hformatZ <;> decide
    obtain rfl | rfl | rfl | rfl | rfl := hformatZ
    · exact ⟨.nop, rfl, rfl⟩
    · exact ⟨.fsArm, rfl, rfl⟩
    · exact ⟨.fsPoll, rfl, rfl⟩
    · exact ⟨.ckInit, rfl, rfl⟩
    · exact ⟨.start, rfl, rfl⟩

/-- A command's word is legal. -/
theorem legal_encode (i : Instr) : legal (encode i) = true := by
  obtain ⟨hop, hrsv, hdata⟩ := encode_fields i
  rw [legal_iff, hop, hrsv, hdata]
  cases i <;> simp [opcodeOf, dataOf]

/-- The legality formula holds of the words the encoder writes and of no others. -/
theorem legal_iff_exists_encode (w : Word) : legal w = true ↔ ∃ i, encode i = w := by
  constructor
  · intro h
    obtain ⟨hop, hrsv, hdata⟩ := (legal_iff w).mp h
    obtain ⟨i, hopcode, hbyte⟩ := exists_instr_of_legal_fields hop hdata
    exact ⟨i, (encode_eq_iff i w).mpr ⟨hopcode.symm, hrsv, hbyte.symm⟩⟩
  · rintro ⟨i, rfl⟩
    exact legal_encode i

theorem legal_iff_decodes (w : Word) : legal w = true ↔ ∃ i, decode w = .ok i := by
  simp only [legal_iff_exists_encode, decode_eq_ok_iff]

/-! ### The 517 legal words -/

/-- Every command: five of format Z, and two of format B for each byte. -/
def allCommands : List Instr :=
  [.nop, .fsArm, .fsPoll, .ckInit, .start] ++
    ((FinEnum.toList Byte).map .fsPollByte ++ (FinEnum.toList Byte).map .ckByte)

theorem mem_allCommands (i : Instr) : i ∈ allCommands := by
  cases i <;> simp [allCommands]

theorem nodup_allCommands : allCommands.Nodup := by
  have bytes : (FinEnum.toList Byte).Nodup := FinEnum.nodup_toList
  have hpoll : ((FinEnum.toList Byte).map Instr.fsPollByte).Nodup := bytes.map fun _ _ h => by simpa using h
  have hck : ((FinEnum.toList Byte).map Instr.ckByte).Nodup := bytes.map fun _ _ h => by simpa using h
  refine List.Nodup.append (by decide) (hpoll.append hck ?_) ?_ <;> simp [List.disjoint_left]

theorem length_allCommands : allCommands.length = 517 := by
  have bytes : (FinEnum.toList Byte).length = 256 := by simp [FinEnum.toList]
  simp [allCommands, bytes]

/-- Different commands have different words. -/
theorem encode_injective : Function.Injective encode := fun i j h =>
  Except.ok.inj ((decode_encode i).symm.trans (h ▸ decode_encode j))

/-- The legal numbers below 65536 are the words of the commands, each once. -/
theorem legalNumbers_perm :
    ((List.range 65536).filter fun n => legal (BitVec.ofNat 16 n)).Perm
      (allCommands.map fun i => (encode i).toNat) := by
  have hinjective : Function.Injective fun i => (encode i).toNat := fun _ _ h =>
    encode_injective (BitVec.eq_of_toNat_eq h)
  rw [List.perm_ext_iff_of_nodup (List.nodup_range.filter _) (nodup_allCommands.map hinjective)]
  intro n
  simp only [List.mem_filter, List.mem_range, legal_iff_exists_encode, List.mem_map, mem_allCommands, true_and]
  constructor
  · rintro ⟨hn, i, hi⟩
    exact ⟨i, by rw [hi, BitVec.toNat_ofNat, Nat.mod_eq_of_lt hn]⟩
  · rintro ⟨i, rfl⟩
    exact ⟨(encode i).isLt, i, by simp⟩

/-- Settles O3: legality is having a command (`legal_iff_decodes`), and the commands are counted. -/
theorem legalityFormulaAndCount : Obligations.LegalityFormulaAndCount := by
  refine ⟨fun w => (legal_iff_decodes w).symm.trans (legal_iff w), legal_iff_decodes, ?_⟩
  rw [legalNumbers_perm.length_eq, List.length_map, length_allCommands]

end Sys2Proof.Machine
end

section
/-! Illegal words (R53), and which inputs ignore the clock (R56). -/

namespace Sys2Proof.Machine

/-- An illegal word has the one effect of R53, whatever is wrong with it: its fault, at the sampled clock. -/
theorem afterEvent_of_not_legal {w : Word} (h : legal w = false) (nowMs : Nat) (s : State) :
    afterEvent (.command w nowMs) s = takeFault .illegalCmd (sampleNow nowMs s) := by
  cases hdecode : decode w with
  | ok i => simp [(legal_iff_decodes w).mpr ⟨i, hdecode⟩] at h
  | error r => simp only [afterEvent, hdecode, illegalStep_eq]

/-- R53's three reasons for a word to be illegal are the complement of R52's formula. -/
theorem legal_eq_false_iff (w : Word) :
    legal w = false ↔ 0x7#4 ≤ opField w ∨ rsvField w ≠ 0#4 ∨
      (opField w ≠ 0x3#4 ∧ opField w ≠ 0x5#4 ∧ dataField w ≠ 0#8) := by
  have hop : opField w ≤ 0x6#4 ↔ ¬0x7#4 ≤ opField w := by bv_omega
  rw [← Bool.not_eq_true, legal_iff, hop]
  tauto

/-- Settles O9: the word is illegal (`legal_eq_false_iff`), and all that an illegal word does is take its fault. -/
theorem illegalWordFaultsAndChangesNothingElse : Obligations.IllegalWordFaultsAndChangesNothingElse := by
  intro s w nowMs rest hinbox hreason
  have hillegal : legal w = false := (legal_eq_false_iff w).mpr hreason
  calc step s
      = .next (afterEvent (.command w nowMs) (acceptInput rest s)) := step_of_inbox hinbox
    _ = .next (takeFault .illegalCmd (sampleNow nowMs (acceptInput rest s))) := by
        rw [afterEvent_of_not_legal hillegal]

/-- The sample is no register of R14 (log entry 3). -/
theorem State.sameRegisters.of_now (s : State) (n : Nat) : s.sameRegisters { s with now := n } :=
  ⟨⟨rfl, rfl, rfl⟩, ⟨rfl, rfl, rfl⟩, rfl⟩

/-- At another sample the idle and CK commands do the same. -/
theorem afterCommand_with_now {i : Instr} (hi : i = .nop ∨ i = .ckInit ∨ ∃ b, i = .ckByte b) (s : State) (n : Nat) :
    afterCommand i { s with now := n } = { afterCommand i s with now := n } := by
  obtain rfl | rfl | ⟨b, rfl⟩ := hi
  · rfl
  · rfl
  · simp only [afterCommand]
    split
    · rfl
    · split
      · rfl
      · split <;> rfl

/-- Settles O49: the idle and CK commands do the same at any sample, and an illegal word only takes its fault. -/
theorem idleCkAndIllegalWordsIgnoreNow : Obligations.IdleCkAndIllegalWordsIgnoreNow := by
  refine ⟨fun s i n hi => ⟨_, _, exec_eq_afterCommand i s, exec_eq_afterCommand i _, ?command⟩,
    fun s w n m hw => ⟨_, _, applyEvent_eq _ s, applyEvent_eq _ s, ?illegal⟩⟩
  case command =>
    rw [afterCommand_with_now hi s n]
    exact .of_now _ n
  case illegal =>
    rw [afterEvent_of_not_legal hw, afterEvent_of_not_legal hw]
    exact .of_now (takeFault .illegalCmd (sampleNow n s)) (sampleClock s.cfg m)

end Sys2Proof.Machine
end

section
/-! The text of a command (R58): the reader gives back what the writer wrote, the clock count included. -/

namespace Sys2Proof.Machine

@[simp] theorem afterWord_append (word cs : List Char) : afterWord word (word ++ cs) = some cs := by
  induction word with
  | nil => rfl
  | cons c word ih => simpa [afterWord] using ih

theorem hexValue_hexDigit (d : BitVec 4) : hexValue (hexDigit d) = some d := by
  revert d; decide

/-- The two digits are the halves of the byte. -/
theorem readByte_byteText (b : Byte) : readByte (byteText b) = some b := by
  have halves : b.extractLsb' 4 4 ++ b.extractLsb' 0 4 = b :=
    (BitVec.extractLsb'_append_extractLsb'_eq_extractLsb' rfl).trans BitVec.extractLsb'_eq_self
  simp only [byteText, readByte, hexValue_hexDigit, halves]

theorem readWithByte_text (name : List Char) (mk : Byte → Instr) (b : Byte) :
    readWithByte name mk (name ++ ' ' :: byteText b) = some (mk b) := by
  have hrest : afterWord (name ++ [' ']) (name ++ ' ' :: byteText b) = some (byteText b) := by
    rw [List.append_cons name ' ' (byteText b), afterWord_append]
  rw [readWithByte, hrest, Option.bind_some, readByte_byteText, Option.map_some]

/-- A text longer than the mnemonics of format Z is read as a format B command or not at all. -/
theorem readCommand_of_length {cs : List Char} (hlong : 7 < cs.length) :
    readCommand cs = (readWithByte (mnemonicOf (.fsPollByte 0#8)) .fsPollByte cs).or
      (readWithByte (mnemonicOf (.ckByte 0#8)) .ckByte cs) := by
  have ne_mnemonic {i : Instr} (hshort : (mnemonicOf i).length ≤ 7) : cs ≠ mnemonicOf i := by
    rintro rfl
    omega
  rw [readCommand, if_neg (ne_mnemonic (by decide)), if_neg (ne_mnemonic (by decide)),
    if_neg (ne_mnemonic (by decide)), if_neg (ne_mnemonic (by decide)), if_neg (ne_mnemonic (by decide))]

/-- The text of a command is read as the command, format Z by its mnemonic alone, format B also by its byte. -/
theorem readCommand_commandText (i : Instr) : readCommand (commandText i) = some i := by
  cases i with
  | nop | fsArm | fsPoll | ckInit | start => rfl
  | fsPollByte b =>
    have hread : readWithByte (mnemonicOf (.fsPollByte 0#8)) .fsPollByte (commandText (.fsPollByte b)) =
      some (.fsPollByte b) := readWithByte_text _ _ b
    rw [readCommand_of_length (by simp [commandText, mnemonicOf]), hread, Option.some_or]
  | ckByte b =>
    have hother : readWithByte (mnemonicOf (.fsPollByte 0#8)) .fsPollByte (commandText (.ckByte b)) = none := rfl
    have hread : readWithByte (mnemonicOf (.ckByte 0#8)) .ckByte (commandText (.ckByte b)) =
      some (.ckByte b) := readWithByte_text _ _ b
    rw [readCommand_of_length (by simp [commandText, mnemonicOf]), hother, hread, Option.none_or]

/-! ### The clock count -/

/-- The digits of `n` are read as `n`: every digit but the last gives `n / 10`, the last appends itself. -/
theorem readDecimal_toDigits (seen : Bool) (n : Nat) (cs : List Char) :
    readDecimal seen 0 (Nat.toDigits 10 n ++ cs) = readDecimal true n cs := by
  induction n using Nat.strongRecOn generalizing cs with
  | ind n ih =>
    obtain hn | hn := Nat.lt_or_ge n 10
    · rw [Nat.toDigits_of_lt_base hn, List.singleton_append, readDecimal_digit seen 0 hn, Nat.mul_zero, Nat.zero_add]
    · rw [Nat.toDigits_of_base_le (by decide) hn, List.append_assoc, ih (n / 10) (by omega), List.singleton_append,
        readDecimal_digit true (n / 10) (Nat.mod_lt n (by decide)), Nat.div_add_mod]

/-- Leading zeros add nothing to the value (log entry 8). -/
theorem readDecimal_zeros_toDigits (zeros : Nat) (seen : Bool) (n : Nat) (cs : List Char) :
    readDecimal seen 0 (List.replicate zeros '0' ++ (Nat.toDigits 10 n ++ cs)) = readDecimal true n cs := by
  induction zeros generalizing seen with
  | zero => exact readDecimal_toDigits seen n cs
  | succ zeros ih => exact (readDecimal_digit seen 0 (d := 0) (by decide) _).trans (ih true)

/-- A timed text is read once its decimal is: up to the space, then the command. -/
theorem readTimed_zeros_toDigits (zeros n : Nat) (i : Instr) :
    readTimed ('@' :: (List.replicate zeros '0' ++ Nat.toDigits 10 n ++ ' ' :: commandText i)) = some (n, i) := by
  rw [List.append_assoc, readTimed, readDecimal_zeros_toDigits, readDecimal_space, if_pos rfl]
  simp only [readCommand_commandText, Option.map_some]

/-- Settles O7: the command reads back, and so does its clock count, with zeros before it or none. -/
theorem assemblerTextReadsBack : Obligations.AssemblerTextReadsBack := fun i =>
  ⟨readCommand_commandText i, fun n => readTimed_zeros_toDigits 0 n i,
    fun n zeros => readTimed_zeros_toDigits zeros n i, rfl⟩

end Sys2Proof.Machine
end

section
/-! The polls (R70, R71, R74): the conditions on `fs_state` and the deadline as the spec writes them, and the state
after FS_POLL and FS_POLL_BYTE under each. -/

namespace Sys2Proof.Machine

theorem hunting_iff (st : FsState) : hunting st = true ↔ st = .hunt ∨ st = .got42 := by
  cases st <;> simp [hunting]

theorem hunting_eq_false_iff (st : FsState) :
    hunting st = false ↔ st = .idle ∨ st = .synced ∨ st = .timeout := by
  cases st <;> simp [hunting]

/-- The deadline has passed when the elapsed time is at least the budget (R60). -/
theorem expired_iff (s : State) (now : Nat) :
    expired s now = true ↔ s.cfg.budgetMs ≤ tickSub s.cfg.tickBits now s.fsTStart :=
  decide_eq_true_iff

theorem expired_eq_false_iff (s : State) (now : Nat) :
    expired s now = false ↔ tickSub s.cfg.tickBits now s.fsTStart < s.cfg.budgetMs := by
  rw [← Bool.not_eq_true, expired_iff, not_le]

/-- A budget of 0 has always passed (R73). -/
theorem expired_of_zero_budget {s : State} (h : s.cfg.budgetMs = 0) (now : Nat) : expired s now = true :=
  (expired_iff s now).mpr (by simp [h])

/-! ### The detector (R61, R62) -/

/-- The tables of R61 and R62 as one formula. -/
theorem detectorNext_of_hunting {st : FsState} (h : hunting st = true) (p : ResyncPolicy) (b : Byte) :
    detectorNext p st b =
      if st = .got42 ∧ b = magic1 then .synced
      else if b = magic0 ∧ (st = .hunt ∨ p = .sliding) then .got42
      else .hunt := by
  have hne : magic0 ≠ magic1 := by decide
  obtain ⟨hnext, hst, hb⟩ | ⟨hnext, rfl, hp⟩ | ⟨hnext, hnot, hrepeat⟩ := detectorNext_cases p st b h <;>
    rw [hnext]
  · rw [if_pos ⟨hst, hb⟩]
  · rw [if_neg (fun h1 => hne h1.2), if_pos ⟨rfl, hp⟩]
  · rw [if_neg hnot, if_neg]
    rintro ⟨hb, hp⟩
    obtain ⟨rfl, rfl⟩ := hrepeat hb
    simp at hp

/-- Only GOT42 with the second marker byte reaches SYNCED. -/
theorem detectorNext_eq_synced_iff {st : FsState} (h : hunting st = true) (p : ResyncPolicy) (b : Byte) :
    detectorNext p st b = .synced ↔ st = .got42 ∧ b = magic1 := by
  rw [detectorNext_of_hunting h]
  split
  case isTrue hsync => exact iff_of_true rfl hsync
  case isFalse hsync => split <;> exact iff_of_false nofun hsync

/-- Taking a byte, as one update: the registers it writes are the three of the FS. -/
theorem consumeByte_eq (b : Byte) (s : State) :
    consumeByte b s = { s with
      fsConsumed := true
      fsState := detectorNext s.cfg.resyncPolicy s.fsState b
      fsTStart :=
        if detectorNext s.cfg.resyncPolicy s.fsState b = .synced ∧ s.cfg.deadlinePolicy = .perPhase then s.now
        else s.fsTStart } := by
  simp only [consumeByte, rearmOnSync]
  split <;> rfl

/-! ### FS_POLL -/

theorem afterCommand_fsPoll_of_expired {s : State} (hhunt : hunting s.fsState = true)
    (h : expired s s.now = true) : afterCommand .fsPoll s = timeOut (defaultConsumed s) := by
  simp [afterCommand, hhunt, h]

theorem afterCommand_fsPoll_of_not_expired {s : State} (h : ¬(hunting s.fsState = true ∧ expired s s.now = true)) :
    afterCommand .fsPoll s = defaultConsumed s := by
  simp [afterCommand, h]

/-! ### FS_POLL_BYTE -/

section
variable {s : State} (b : Byte)

theorem afterCommand_fsPollByte_of_not_hunting (h : hunting s.fsState = false) :
    afterCommand (.fsPollByte b) s = defaultConsumed s := by
  simp [afterCommand, h]

theorem afterCommand_fsPollByte_of_expired (hhunt : hunting s.fsState = true) (h : expired s s.now = true) :
    afterCommand (.fsPollByte b) s = timeOut (defaultConsumed s) := by
  simp [afterCommand, hhunt, h]

theorem afterCommand_fsPollByte_of_not_expired (hhunt : hunting s.fsState = true) (h : expired s s.now = false) :
    afterCommand (.fsPollByte b) s = consumeByte b (defaultConsumed s) := by
  simp [afterCommand, hhunt, h]

end

/-- Settles O21: the three cases of FS_POLL_BYTE, and `detectorNext_of_hunting` for the byte that is taken. -/
theorem fsPollByteTestsDeadlineThenTakesTheByte : Obligations.FsPollByteTestsDeadlineThenTakesTheByte := by
  intro s b
  simp only [← hunting_iff, ← expired_iff, ← expired_eq_false_iff, Bool.not_eq_true]
  have hword : 0x3#4 ++ 0#4 = 0x30#8 := by decide
  refine ⟨congrArg (· ++ b) hword, fun hover => ?outside,
    fun hhunt hexpired => ⟨_, exec_eq_afterCommand _ s, ?late⟩,
    fun hhunt hintime => ⟨_, exec_eq_afterCommand _ s, ?taken, ?sync⟩⟩
  case outside => rw [exec_eq_afterCommand, afterCommand_fsPollByte_of_not_hunting b hover]; rfl
  case late => rw [afterCommand_fsPollByte_of_expired b hhunt hexpired]; exact ⟨rfl, rfl⟩
  case taken =>
    rw [afterCommand_fsPollByte_of_not_expired b hhunt hintime, consumeByte_eq]
    simp only [defaultConsumed_cfg, defaultConsumed_fsState, detectorNext_eq_synced_iff hhunt]
    rw [detectorNext_of_hunting hhunt]
    rfl
  case sync =>
    rw [afterCommand_fsPollByte_of_not_expired b hhunt hintime]
    calc (presented (consumeByte b (defaultConsumed s))).fsSyncOk = true
        ↔ (consumeByte b (defaultConsumed s)).fsState = .synced := decide_eq_true_iff
      _ ↔ s.fsState = .got42 ∧ b = magic1 := by
          rw [consumeByte_fsState]
          exact detectorNext_eq_synced_iff hhunt _ b

/-- Settles O19: the two cases of FS_POLL. -/
theorem fsPollTimesOutAtTheBudget : Obligations.FsPollTimesOutAtTheBudget := by
  unfold Obligations.FsPollTimesOutAtTheBudget
  simp only [← hunting_iff, ← expired_iff]
  refine ⟨rfl, fun s hhunt hexpired => ⟨_, exec_eq_afterCommand _ s, ?late⟩, fun s h => ?intime⟩
  case late => rw [afterCommand_fsPoll_of_expired hhunt hexpired]; exact ⟨rfl, rfl⟩
  case intime => rw [exec_eq_afterCommand, afterCommand_fsPoll_of_not_expired h]; rfl

/-- Settles O20: neither poll reads anything else once the hunt is over. -/
theorem pollsOutsideTheHuntDoNothing : Obligations.PollsOutsideTheHuntDoNothing := by
  intro s b h
  have hover : hunting s.fsState = false := (hunting_eq_false_iff _).mpr h
  rw [exec_eq_afterCommand, exec_eq_afterCommand, afterCommand_fsPollByte_of_not_hunting b hover,
    afterCommand_fsPoll_of_not_expired (by simp [hover])]
  exact ⟨rfl, rfl⟩

/-- At an expired deadline both polls end the hunt, and neither looks at a byte (R70, R72, R75). -/
theorem exec_polls_of_expired {s : State} (hhunt : s.fsState = .hunt ∨ s.fsState = .got42)
    (h : s.cfg.budgetMs ≤ tickSub s.cfg.tickBits s.now s.fsTStart) (b : Byte) :
    exec .fsPoll s = .next (timeOut (defaultConsumed s)) ∧
      exec (.fsPollByte b) s = .next (timeOut (defaultConsumed s)) := by
  rw [← hunting_iff] at hhunt
  rw [← expired_iff] at h
  rw [exec_eq_afterCommand, exec_eq_afterCommand, afterCommand_fsPoll_of_expired hhunt h,
    afterCommand_fsPollByte_of_expired b hhunt h]
  exact ⟨rfl, rfl⟩

/-- Settles O24: the expiry branch of FS_POLL_BYTE does not read the byte. -/
theorem deadlineIsTestedBeforeTheByte : Obligations.DeadlineIsTestedBeforeTheByte := by
  intro s b hhunt hlate
  exact ⟨_, (exec_polls_of_expired hhunt hlate b).2, rfl, rfl, rfl⟩

/-- In SYNCED the flag is the deadline test itself (R26). -/
theorem fsDeadlineExpired_of_synced {s : State} (h : s.fsState = .synced) (now : Nat) :
    fsDeadlineExpired s now = expired s now := by
  simp only [fsDeadlineExpired, h]

/-- Settles O25: the byte that syncs writes `fs_t_start` by `consumeByte_fsTStart`, and SYNCED tests the deadline from
there. -/
theorem syncRearmsTheDeadlineOnlyPerPhase : Obligations.SyncRearmsTheDeadlineOnlyPerPhase := by
  intro s hgot42 hintime
  have hhunt : hunting s.fsState = true := (hunting_iff _).mpr (.inr hgot42)
  have hsync : detectorNext s.cfg.resyncPolicy s.fsState magic1 = .synced :=
    (detectorNext_eq_synced_iff hhunt _ _).mpr ⟨hgot42, rfl⟩
  have hstate : (consumeByte magic1 (defaultConsumed s)).fsState = .synced :=
    (consumeByte_fsState magic1 _).trans hsync
  have hstart : (consumeByte magic1 (defaultConsumed s)).fsTStart =
      if s.cfg.deadlinePolicy = .perPhase then s.now else s.fsTStart := by
    simp [consumeByte_fsTStart, hsync]
  refine ⟨_, exec_eq_afterCommand (.fsPollByte magic1) s, ?_⟩
  rw [afterCommand_fsPollByte_of_not_expired magic1 hhunt ((expired_eq_false_iff s _).mpr hintime)]
  refine ⟨hstate, fun h => hstart.trans (if_pos h), fun h => hstart.trans (if_neg (by simp [h])),
    fun later => (fsDeadlineExpired_of_synced hstate later).trans ?_⟩
  rw [expired, fsElapsed, hstart, consumeByte_cfg]
  cases s.cfg.deadlinePolicy <;> rfl

/-! ### The detector's tables -/

/-- The cells of R61 and R62 for a byte that FS_POLL_BYTE takes; only the cell GOT42 with 0x42 asks the policy. -/
theorem exec_fsPollByte_cells {s : State} (b : Byte) (hhunt : s.fsState = .hunt ∨ s.fsState = .got42)
    (hintime : tickSub s.cfg.tickBits s.now s.fsTStart < s.cfg.budgetMs) :
    ∃ t, exec (.fsPollByte b) s = .next t ∧ t.fsConsumed = true ∧
      (s.fsState = .hunt → b = 0x42#8 → t.fsState = .got42) ∧
      (s.fsState = .hunt → b = 0x4D#8 → t.fsState = .hunt) ∧
      (s.fsState = .hunt → b ≠ 0x42#8 → b ≠ 0x4D#8 → t.fsState = .hunt) ∧
      (s.fsState = .got42 → b = 0x42#8 → t.fsState = afterRepeated42 s.cfg.resyncPolicy) ∧
      (s.fsState = .got42 → b = 0x4D#8 → t.fsState = .synced) ∧
      (s.fsState = .got42 → b ≠ 0x42#8 → b ≠ 0x4D#8 → t.fsState = .hunt) := by
  refine ⟨_, exec_eq_afterCommand _ s, ?_⟩
  rw [afterCommand_fsPollByte_of_not_expired b ((hunting_iff _).mpr hhunt) ((expired_eq_false_iff s _).mpr hintime),
    consumeByte_fsState, defaultConsumed_fsState, defaultConsumed_cfg]
  refine ⟨consumeByte_fsConsumed b _, ?_, ?_, ?_, ?_, ?_, ?_⟩
  · rintro hst rfl; rw [hst]; rfl
  · rintro hst rfl; rw [hst]; rfl
  · intro hst h42 _; rw [hst]; exact if_neg h42
  · rintro hst rfl; rw [hst]; rfl
  · rintro hst rfl; rw [hst]; rfl
  · intro hst h42 h4D; rw [hst]; exact (if_neg h4D).trans (if_neg h42)

/-- Settles O22: under SLIDING the cell of R63 is GOT42. -/
theorem slidingDetectorTable : Obligations.SlidingDetectorTable := by
  intro s b hp hhunt hintime
  have hcells := exec_fsPollByte_cells b hhunt hintime
  rwa [hp] at hcells

/-- Settles O23: under STRICT the cell of R63 is HUNT, and no other cell asks the policy. -/
theorem strictDetectorTable : Obligations.StrictDetectorTable := by
  constructor
  · intro s b hp hhunt hintime
    have hcells := exec_fsPollByte_cells b hhunt hintime
    rwa [hp] at hcells
  · rintro st b (rfl | rfl) hcell
    · rfl
    · have hb : b ≠ magic0 := fun hb => hcell ⟨rfl, hb⟩
      simp only [detectorNext, if_neg hb]

end Sys2Proof.Machine
end

section
/-! What arms, takes a byte or ends the hunt (R66, R69, R72, R73, R78). -/

namespace Sys2Proof.Machine

/-- Settles O18: the elapsed time of the arm's own step is 0. -/
theorem fsArmArmsFromEveryState : Obligations.FsArmArmsFromEveryState := by
  refine ⟨rfl, fun s => ⟨_, exec_eq_afterCommand .fsArm s, rfl, tickSub_self _ _, rfl, rfl, ?expired,
    fun hbudget => ⟨_, exec_eq_afterCommand _ _, ?firstPoll⟩⟩⟩
  case expired => exact congrArg (fun n => decide (s.cfg.budgetMs ≤ n)) (tickSub_self _ s.now)
  case firstPoll =>
    have hexpired : expired (afterCommand .fsArm s) s.now = true :=
      expired_of_zero_budget (s := afterCommand .fsArm s) hbudget _
    rw [afterCommand_fsPoll_of_expired rfl hexpired, timeOut_fsState]

/-- A command that arms leads to HUNT (R66, R69, R94). -/
theorem afterCommand_fsState_of_arm {i : Instr} (h : isArm i = true) (s : State) :
    (afterCommand i s).fsState = .hunt := by
  cases i with
  | fsArm | start => rfl
  | nop | fsPoll | fsPollByte | ckInit | ckByte => simp [isArm] at h

/-- A command takes a byte exactly if it is an FS_POLL_BYTE in the hunt before the deadline (R78). -/
theorem afterCommand_fsConsumed_iff (i : Instr) (s : State) :
    (afterCommand i s).fsConsumed = true ↔
      (∃ b, i = .fsPollByte b) ∧ hunting s.fsState = true ∧ expired s s.now = false := by
  by_cases hi : ∃ b, i = .fsPollByte b
  · obtain ⟨b, rfl⟩ := hi
    obtain ⟨hover, h⟩ | ⟨_, hlate, h⟩ | ⟨hhunt, hintime, h⟩ := afterCommand_fsPollByte_cases b s <;> rw [h]
    · simp [hover]
    · simp [hlate]
    · simp [hhunt, hintime]
  · rw [afterCommand_fsConsumed_of_not_pollByte (fun b hb => hi ⟨b, hb⟩)]
    exact iff_of_false nofun fun h => hi h.1

/-- The words of FS_POLL_BYTE are those with OP 3 and RSV 0 (R51). -/
theorem decode_eq_fsPollByte_iff (w : Word) :
    (∃ b, decode w = .ok (.fsPollByte b)) ↔ opField w = 0x3#4 ∧ rsvField w = 0#4 := by
  simp only [decode_eq_ok_iff, encode_eq_iff]
  exact ⟨fun ⟨_, hop, hrsv, _⟩ => ⟨hop, hrsv⟩, fun ⟨hop, hrsv⟩ => ⟨dataField w, hop, hrsv, rfl⟩⟩

/-- An input takes a byte exactly if it brings an FS_POLL_BYTE in the hunt before the deadline, at the sampled clock. -/
theorem afterEvent_command_fsConsumed_iff (w : Word) (nowMs : Nat) (s : State) :
    (afterEvent (.command w nowMs) s).fsConsumed = true ↔
      (∃ b, decode w = .ok (.fsPollByte b)) ∧ hunting s.fsState = true ∧
        expired s (sampleClock s.cfg nowMs) = false := by
  cases hdecode : decode w with
  | ok i =>
    rw [afterEvent_of_decode_ok hdecode, afterCommand_fsConsumed_iff]
    simp only [Except.ok.injEq]
    rfl
  | error r => simp [afterEvent, hdecode]

/-- Settles O26: reset takes no byte, and a command exactly as `afterEvent_command_fsConsumed_iff` says. -/
theorem consumedExactlyWhenAByteWasTaken : Obligations.ConsumedExactlyWhenAByteWasTaken := by
  intro s t e rest hinbox hstep
  obtain rfl : afterEvent e (acceptInput rest s) = t := by simpa [step_of_inbox hinbox] using hstep
  cases e with
  | reset => simp [afterEvent]
  | command w nowMs =>
    rw [afterEvent_command_fsConsumed_iff, decode_eq_fsPollByte_iff, hunting_iff, expired_eq_false_iff, and_assoc]
    constructor
    · exact fun h => ⟨w, nowMs, rfl, h⟩
    · rintro ⟨_, _, ⟨⟩, h⟩
      exact h

/-- The words that arm are those of FS_ARM and START (R51, R69). -/
theorem eq_of_armsOrResets {e : HostEvent} (h : armsOrResets e = true) :
    e = .reset ∨ ∃ nowMs, e = .command 0x1000#16 nowMs ∨ e = .command 0x6000#16 nowMs := by
  cases e with
  | reset => exact .inl rfl
  | command w nowMs =>
    obtain ⟨i, hi, harm⟩ : ∃ i, decode w = .ok i ∧ isArm i = true := by
      cases hdecode : decode w with
      | ok i => exact ⟨i, rfl, by rwa [armsOrResets_of_decode_ok hdecode] at h⟩
      | error r => simp [armsOrResets, isReset, commandOf, hdecode, Except.toOption] at h
    rw [decode_eq_ok_iff] at hi
    subst hi
    right
    cases i with
    | fsArm => exact ⟨nowMs, .inl rfl⟩
    | start => exact ⟨nowMs, .inr rfl⟩
    | nop | fsPoll | fsPollByte | ckInit | ckByte => simp [isArm] at harm

/-- Outside the hunt `fs_state` is kept by every input but an arm or a reset (R69, R71). -/
theorem afterEvent_fsState_of_not_hunting {e : HostEvent} {s : State} (he : armsOrResets e = false)
    (h : hunting s.fsState = false) : (afterEvent e s).fsState = s.fsState := by
  obtain ⟨_, hkept | ⟨hhunt, _⟩⟩ | ⟨_, _, hhunt, _⟩ := afterEvent_fsState_cases he s
  · exact hkept
  · simp [h] at hhunt
  · simp [h] at hhunt

theorem afterEvents_fsState_of_not_hunting {es : List HostEvent} (hes : ∀ e ∈ es, armsOrResets e = false)
    {s : State} (h : hunting s.fsState = false) : (afterEvents es s).fsState = s.fsState := by
  refine afterEvents_induct (P := fun t => t.fsState = s.fsState) (fun e t he ht => ?_) es s hes rfl
  rw [afterEvent_fsState_of_not_hunting he (ht ▸ h), ht]

/-- Settles O27: an input that changes `fs_state` outside the hunt arms or resets, and `eq_of_armsOrResets` names it. -/
theorem onlyAnArmOrResetLeavesIdleSyncedTimeout : Obligations.OnlyAnArmOrResetLeavesIdleSyncedTimeout := by
  refine ⟨fun s t e rest hinbox hst hstep hchanged => eq_of_armsOrResets ?_,
    fun s => ⟨_, _, exec_eq_afterCommand _ s, exec_eq_afterCommand _ s,
      afterCommand_fsState_of_arm rfl s, afterCommand_fsState_of_arm rfl s⟩⟩
  obtain rfl : afterEvent e (acceptInput rest s) = t := by simpa [step_of_inbox hinbox] using hstep
  have hover : hunting (acceptInput rest s).fsState = false := (hunting_eq_false_iff _).mpr hst
  by_contra he
  exact hchanged (afterEvent_fsState_of_not_hunting (Bool.eq_false_of_not_eq_true he) hover)

/-- Settles O28: both polls expire alike, and TIMEOUT is outside the hunt. -/
theorem timeoutHoldsUntilTheNextArm : Obligations.TimeoutHoldsUntilTheNextArm := by
  constructor
  · intro s b hst hlate
    obtain ⟨hpoll, hpollByte⟩ := exec_polls_of_expired hst hlate b
    exact ⟨_, _, hpoll, hpollByte, rfl, rfl⟩
  · intro s es htimeout hes
    have hover : hunting s.fsState = false := by simp [htimeout, hunting]
    exact ⟨_, applyEvents_eq es s, (afterEvents_fsState_of_not_hunting hes hover).trans htimeout⟩

/-- Only a taken byte leads into SYNCED, whatever the command. -/
theorem afterCommand_fsState_ne_synced {i : Instr} {s : State} (hconsumed : (afterCommand i s).fsConsumed = false)
    (h : s.fsState ≠ .synced) : (afterCommand i s).fsState ≠ .synced := by
  cases harm : isArm i with
  | true => simp [afterCommand_fsState_of_arm harm]
  | false =>
    obtain ⟨_, hkept | ⟨_, htimeout⟩⟩ | ⟨_, _, _, htaken, _⟩ := afterCommand_fsState_cases harm s
    · rwa [hkept]
    · simp [htimeout]
    · simp [hconsumed] at htaken

/-- With a budget of 0 no byte is ever taken, so no input leads into SYNCED. -/
theorem afterEvent_fsState_ne_synced_of_zero_budget {s : State} (hbudget : s.cfg.budgetMs = 0)
    (h : s.fsState ≠ .synced) (e : HostEvent) : (afterEvent e s).fsState ≠ .synced := by
  obtain ⟨_, he⟩ | ⟨_, nowMs, i, _, _, he⟩ | ⟨_, _, _, _, _, he⟩ := afterEvent_cases e s <;> rw [he]
  · simp
  · refine afterCommand_fsState_ne_synced ?_ h
    rw [← Bool.not_eq_true, afterCommand_fsConsumed_iff]
    rintro ⟨_, _, hintime⟩
    simp [expired_of_zero_budget (s := sampleNow nowMs s) hbudget] at hintime
  · exact h

/-- Settles O29: the deadline has always passed, for the polls and along any inputs. -/
theorem zeroBudgetNeverSyncs : Obligations.ZeroBudgetNeverSyncs := by
  constructor
  · intro s b hbudget hst
    have hlate := (expired_iff s s.now).mp (expired_of_zero_budget hbudget _)
    obtain ⟨hpoll, hpollByte⟩ := exec_polls_of_expired hst hlate b
    exact ⟨_, _, hpoll, hpollByte, rfl, rfl, rfl, rfl⟩
  · intro s es hbudget hst
    refine ⟨_, applyEvents_eq es s, ?_⟩
    have hkept : (afterEvents es s).cfg.budgetMs = 0 ∧ (afterEvents es s).fsState ≠ .synced := by
      refine afterEvents_induct (Q := fun _ => True) (P := fun t => t.cfg.budgetMs = 0 ∧ t.fsState ≠ .synced) ?_
        es s (fun _ _ => trivial) ⟨hbudget, hst⟩
      rintro e t - ⟨hb, ht⟩
      exact ⟨by rwa [afterEvent_cfg], afterEvent_fsState_ne_synced_of_zero_budget hb ht e⟩
    exact hkept.2

end Sys2Proof.Machine
end

section
/-! The detector over the bytes consumed: the first marker under SLIDING (R64), runs of 0x42 under STRICT (R65). -/

namespace Sys2Proof.Machine

/-- Settles O30: `MarkerHistory` from the arm on; under SLIDING it determines SYNCED and GOT42 both ways. -/
theorem slidingFindsTheFirstMarker : Obligations.SlidingFindsTheFirstMarker := by
  intro s arm nowMs es hp harm hes
  have hisArm : isArm arm = true := by obtain rfl | rfl := harm <;> rfl
  refine ⟨_, _, applyEvent_eq _ s, applyEvents_eq es _, ?_⟩
  have hstart : MarkerHistory (afterEvent (commandAt nowMs arm) s).cfg.resyncPolicy
      (afterEvent (commandAt nowMs arm) s).fsState [] := by
    rw [commandAt, afterEvent_of_decode_ok (decode_encode arm), afterCommand_fsState_of_arm hisArm]
    exact .hunt_nil _
  have hhistory := hstart.afterEvents_consumedBytes hes
  rw [afterEvent_cfg, hp, List.nil_append] at hhistory
  generalize afterEvent (commandAt nowMs arm) s = s0 at hhistory ⊢
  generalize afterEvents es s0 = t at hhistory ⊢
  obtain ⟨hsynced, hgot42, hhunt, hnoMarker⟩ := hhistory
  refine ⟨⟨fun h => ?reached, fun h => ?found⟩, fun h => ?first, fun hst => ⟨hgot42, fun hlast => ?last⟩⟩
  case reached =>
    obtain ⟨before, hc, _⟩ := hsynced h
    exact ⟨before, [], by rw [hc, List.append_nil]; rfl⟩
  case found => exact by_contra fun hst => hnoMarker rfl hst h
  case first =>
    obtain ⟨before, hc, hbefore⟩ := hsynced h
    exact ⟨before, hc, hbefore rfl⟩
  case last => exact hst.resolve_left fun h => hhunt rfl h hlast

/-- While the hunt goes on, `fs_state` is what the detector makes of the bytes consumed, one after the other. -/
theorem fsState_eq_foldl_of_hunting {es : List HostEvent} (hes : ∀ e ∈ es, armsOrResets e = false) {s : State}
    (h : hunting (afterEvents es s).fsState = true) :
    (afterEvents es s).fsState = (consumedBytes es s).foldl (detectorNext s.cfg.resyncPolicy) s.fsState := by
  induction es generalizing s with
  | nil => rfl
  | cons e es ih =>
    obtain ⟨he, hes⟩ := List.forall_mem_cons.mp hes
    have hrest := ih hes h
    rw [afterEvent_cfg] at hrest
    rw [consumedBytes_cons, List.foldl_append]
    refine hrest.trans (congrArg (fun st => List.foldl _ st _) ?_)
    obtain ⟨hconsumed, hkept | ⟨_, htimeout⟩⟩ | ⟨b, hpolled, _, hconsumed, hstate⟩ :=
      afterEvent_fsState_cases he s
    · simp [takenBytes, hconsumed, hkept]
    · have hover : hunting (afterEvent e s).fsState = false := by simp [htimeout, hunting]
      have hend : (afterEvents (e :: es) s).fsState = .timeout :=
        (afterEvents_fsState_of_not_hunting hes hover).trans htimeout
      simp [hend, hunting] at h
    · simp [takenBytes, hconsumed, hpolled, hstate]

/-- Under STRICT a run of 0x42 alternates between GOT42 and HUNT. -/
theorem foldl_detectorNext_strict_replicate (k : Nat) :
    (List.replicate k magic0).foldl (detectorNext .strict) .hunt = if k % 2 = 1 then .got42 else .hunt := by
  induction k with
  | zero => rfl
  | succ k ih =>
    rw [List.replicate_succ', List.foldl_concat, ih]
    obtain h | h := Nat.mod_two_eq_zero_or_one k
    · simp [h, Nat.add_mod, detectorNext]
    · simp [h, Nat.add_mod, detectorNext, afterRepeated42, magic0, magic1]

/-- Settles O31: the run leaves GOT42 exactly if it is odd, and only GOT42 syncs on 0x4D. -/
theorem strictSyncsExactlyOnOddRuns : Obligations.StrictSyncsExactlyOnOddRuns := by
  intro s t u es nowMs k hp hst _ hes ht hrun hu htaken
  obtain rfl : afterEvents es s = t := by simpa [applyEvents_eq] using ht
  obtain rfl : afterEvent (commandAt nowMs (.fsPollByte 0x4D#8)) (afterEvents es s) = u := by
    simpa [applyEvent_eq] using hu
  have hpoll : armsOrResets (commandAt nowMs (.fsPollByte 0x4D#8)) = false := by
    rw [armsOrResets, commandOf_commandAt]; rfl
  obtain ⟨hconsumed, _⟩ | ⟨b, hb, hhunt, _, hnext⟩ := afterEvent_fsState_cases hpoll (afterEvents es s)
  · simp [htaken] at hconsumed
  obtain rfl : 0x4D#8 = b := by simpa [polledByte, offeredByteOf] using hb
  have hstate : (afterEvents es s).fsState = if k % 2 = 1 then .got42 else .hunt := by
    rw [fsState_eq_foldl_of_hunting hes hhunt, hrun, hp, hst]
    exact foldl_detectorNext_strict_replicate k
  rw [hnext, hstate, afterEvents_cfg, hp]
  obtain h | h := Nat.mod_two_eq_zero_or_one k
  · simp [h, detectorNext, magic0]
  · simp [h, detectorNext, magic1]

end Sys2Proof.Machine
end

section
/-! Reading an attempt's outcome from the outputs (R79, R96). -/

namespace Sys2Proof.Machine

/-- SyncTimeout is the FS's own flag, whatever the CK holds (R79). -/
theorem readResult_eq_syncTimeout_iff (o : Outputs) : readResult o = .syncTimeout ↔ o.fsSyncTimeout = true := by
  unfold readResult
  split
  case isTrue h => exact iff_of_true rfl h
  case isFalse h =>
    refine iff_of_false ?_ h
    (repeat' split) <;> nofun

/-- Five bits hold every count (R19). -/
theorem presented_ckCount_toNat (s : State) : (presented s).ckCount.toNat = s.ckCount.val :=
  Nat.mod_eq_of_lt (s.ckCount.isLt.trans (by decide))

theorem ckMatch_iff (s : State) : ckMatch s = true ↔ s.ckCount = 30 ∧ s.ckSum = s.ckExp := by
  simp [ckMatch, ckDone]

theorem ckMismatch_iff (s : State) : ckMismatch s = true ↔ s.ckCount = 30 ∧ s.ckSum ≠ s.ckExp := by
  simp [ckMismatch, ckDone]

/-- In SYNCED the verdict flags decide, and without a verdict the count is what the reader reports (log entry 9). -/
theorem readResult_of_synced {s : State} (h : s.fsState = .synced) :
    readResult (presented s) =
      if s.ckCount = 30 ∧ s.ckSum = s.ckExp then .valid
      else if s.ckCount = 30 ∧ s.ckSum ≠ s.ckExp then .checksumMismatch s.ckExp s.ckSum
      else .incomplete s.ckCount.val := by
  have htimeout : (presented s).fsSyncTimeout = false := by simp [presented, outputs, h]
  have hok : (presented s).fsSyncOk = true := by simp [presented, outputs, h]
  have hmatch : (presented s).ckMatch = ckMatch s := rfl
  have hmismatch : (presented s).ckMismatch = ckMismatch s := rfl
  simp only [readResult, htimeout, hok, hmatch, hmismatch, ckMatch_iff, ckMismatch_iff, presented_ckCount_toNat,
    Bool.false_eq_true, if_false, if_true]
  rfl

/-- Settles O55: TIMEOUT is read from the FS's flag alone, and in SYNCED the three cases are those of the CK. -/
theorem resultsNameTheirPhase : Obligations.ResultsNameTheirPhase := by
  intro s
  refine ⟨(readResult_eq_syncTimeout_iff _).trans decide_eq_true_iff, fun h hshort => ?_, fun h h30 heq => ?_,
    fun h h30 hne => ?_⟩ <;> rw [readResult_of_synced h]
  · rw [if_neg fun hv => hshort hv.1, if_neg fun hv => hshort hv.1]
  · rw [if_pos ⟨h30, heq⟩]
  · rw [if_neg fun hv => hne hv.2, if_pos ⟨h30, hne⟩]

end Sys2Proof.Machine
end

section
/-! The accumulator's commands (R82, R84, R85, R87): CK_BYTE at each position of its byte, and the verdict as a function
of the CK registers. -/

namespace Sys2Proof.Machine

/-! ### CK_BYTE by position -/

section
variable {s : State} (b : Byte)

theorem afterCommand_ckByte_of_le_27 (h : s.ckCount.val ≤ 27) :
    afterCommand (.ckByte b) s = sumByte b (defaultConsumed s) :=
  if_pos (Fin.le_def.mpr h)

theorem afterCommand_ckByte_of_28 (h : s.ckCount = 28) :
    afterCommand (.ckByte b) s = captureHigh b (defaultConsumed s) := by simp [afterCommand, h]

theorem afterCommand_ckByte_of_29 (h : s.ckCount = 29) :
    afterCommand (.ckByte b) s = captureLow b (defaultConsumed s) := by simp [afterCommand, h]

theorem afterCommand_ckByte_of_30 (h : s.ckCount = 30) :
    afterCommand (.ckByte b) s = takeFault .ckOverrun s := by simp [afterCommand, h]

end

/-- The 16-bit addition of a byte, in numbers (R9). -/
theorem add16_zext16 (w : Word) (b : Byte) : add16 w (zext16 b) = BitVec.ofNat 16 (w.toNat + b.toNat) := by
  apply BitVec.eq_of_toNat_eq
  simp [add16, zext16, BitVec.toNat_add, BitVec.toNat_setWidth]

/-- Reducing modulo 65536 first does not change a 16-bit word (R9). -/
theorem ofNat_mod_65536 (n : Nat) : BitVec.ofNat 16 (n % 65536) = BitVec.ofNat 16 n :=
  BitVec.eq_of_toNat_eq (by simp)

/-! ### The verdict (R27) -/

/-- With a complete frame exactly one verdict flag is 1. -/
theorem ckMismatch_eq_not_ckMatch {s : State} (h : s.ckCount = 30) : ckMismatch s = !ckMatch s := by
  simp [ckMismatch, ckMatch, ckDone, h]

/-- The verdict is read from the CK registers alone. -/
theorem verdict_of_sameCk {s t : State} (h : s.sameCk t) :
    ckMatch s = ckMatch t ∧ ckMismatch s = ckMismatch t := by
  obtain ⟨hsum, hcount, hexp⟩ := h
  simp [ckMatch, ckMismatch, ckDone, hsum, hcount, hexp]

/-- Settles O37: at count 0 there is no verdict. -/
theorem ckInitClearsTheAccumulator : Obligations.CkInitClearsTheAccumulator :=
  ⟨rfl, fun s => ⟨_, exec_eq_afterCommand .ckInit s, rfl, rfl, rfl, rfl⟩⟩

/-- Settles O38, position by position. -/
theorem ckByteActsByPosition : Obligations.CkByteActsByPosition := by
  intro s b
  have hword : 0x5#4 ++ 0#4 = 0x50#8 := by decide
  refine ⟨congrArg (· ++ b) hword, fun h27 => ⟨_, exec_eq_afterCommand _ s, ?count, ?summed⟩, fun h28 => ?high,
    fun h29 => ⟨_, exec_eq_afterCommand _ s, ?low, ?verdict⟩, fun h30 => ?overrun⟩
  case count =>
    rw [afterCommand_ckByte_of_le_27 b h27]
    exact sumByte_ckCount_val (s := defaultConsumed s) h27 b
  case summed =>
    rw [afterCommand_ckByte_of_le_27 b h27, ofNat_mod_65536, ← add16_zext16]
    rfl
  case high => rw [exec_eq_afterCommand, afterCommand_ckByte_of_28 b h28]; rfl
  case low => rw [afterCommand_ckByte_of_29 b h29]; rfl
  case verdict =>
    rw [afterCommand_ckByte_of_29 b h29]
    exact ⟨rfl, ckMismatch_eq_not_ckMatch (s := captureLow b (defaultConsumed s)) rfl⟩
  case overrun => rw [exec_eq_afterCommand, afterCommand_ckByte_of_30 b h30]; rfl

/-- Settles O39: an overrun only takes its fault, and the verdict is read from registers it keeps. -/
theorem overrunDropsTheByteAndKeepsTheVerdict : Obligations.OverrunDropsTheByteAndKeepsTheVerdict := by
  intro s b h30
  have hck : (takeFault .ckOverrun s).sameCk s := .refl s
  exact ⟨_, (exec_eq_afterCommand _ s).trans (congrArg _ (afterCommand_ckByte_of_30 b h30)), rfl, hck,
    verdict_of_sameCk hck⟩

end Sys2Proof.Machine
end

section
/-! The accumulator over any inputs (R89): it ends where the CK parts of the inputs lead, and nothing else has a say. -/

namespace Sys2Proof.Machine

/-- The CK parts of a list of inputs, applied in order. -/
def ckRun (as : List CkAction) (s : State) : State := as.foldl (fun s a => ckEffect s (some a)) s

@[simp] theorem ckRun_nil (s : State) : ckRun [] s = s := rfl

@[simp] theorem ckRun_cons (a : CkAction) (as : List CkAction) (s : State) :
    ckRun (a :: as) s = ckRun as (ckEffect s (some a)) := rfl

theorem ckRun_append (as as' : List CkAction) (s : State) : ckRun (as ++ as') s = ckRun as' (ckRun as s) :=
  List.foldl_append

theorem ckRun_sameCk {s s' : State} (h : s.sameCk s') (as : List CkAction) : (ckRun as s).sameCk (ckRun as s') := by
  induction as generalizing s s' with
  | nil => exact h
  | cons a as ih => exact ih (ckEffect_sameCk h (some a))

@[simp] theorem ckEvent_commandAt (nowMs : Nat) (i : Instr) : ckEvent (commandAt nowMs i) = ckActionOf i := by
  simp [ckEvent]

@[simp] theorem fedByte_ckByte (nowMs : Nat) (b : Byte) : fedByte (commandAt nowMs (.ckByte b)) = some b := by
  simp [fedByte, ckActionOf]

theorem clearsOrResets_commandAt (nowMs : Nat) (i : Instr) : clearsOrResets (commandAt nowMs i) = isClear i := by
  rw [clearsOrResets, commandOf_commandAt]
  rfl

/-- The CK part of a legal word is that of its command. -/
theorem ckEvent_of_decode_ok {w : Word} {i : Instr} (h : decode w = .ok i) (nowMs : Nat) :
    ckEvent (.command w nowMs) = ckActionOf i := by
  simp [ckEvent, commandOf, h, Except.toOption]

/-- An input other than a reset does to the CK what its CK part does: an illegal word has none (R53). -/
theorem afterEvent_sameCk_ckEffect {e : HostEvent} (h : isReset e = false) (s : State) :
    (afterEvent e s).sameCk (ckEffect s (ckEvent e)) := by
  obtain ⟨rfl, _⟩ | ⟨w, nowMs, i, rfl, hdecode, he⟩ | ⟨w, nowMs, r, rfl, hdecode, he⟩ := afterEvent_cases e s
  · simp [isReset] at h
  · rw [he, ckEvent_of_decode_ok hdecode]
    have hsampled : (sampleNow nowMs s).sameCk s := .refl s
    exact (afterCommand_sameCk_ckEffect i _).trans (ckEffect_sameCk hsampled _)
  · have hpart : ckEvent (.command w nowMs) = none := by simp [ckEvent, commandOf, hdecode, Except.toOption]
    rw [he, hpart]
    exact .refl s

/-- Without a reset, inputs lead the CK where their CK parts do. -/
theorem afterEvents_sameCk_ckRun {es : List HostEvent} (hes : ∀ e ∈ es, isReset e = false) (s : State) :
    (afterEvents es s).sameCk (ckRun (es.filterMap ckEvent) s) := by
  induction es generalizing s with
  | nil => exact .refl s
  | cons e es ih =>
    obtain ⟨he, hes⟩ := List.forall_mem_cons.mp hes
    have hstep := afterEvent_sameCk_ckEffect he s
    rw [List.filterMap_cons]
    generalize ckEvent e = part at hstep ⊢
    cases part with
    | none | some a => exact (ih hes _).trans (ckRun_sameCk hstep _)

/-- Settles O42: both lists lead the CK where their common CK parts do, and a clear forgets the state before it. -/
theorem verdictDependsOnlyOnTheCkCommands : Obligations.VerdictDependsOnlyOnTheCkCommands := by
  intro s s' es es' hstart hes hes' hparts
  have hrun : (ckRun (es.filterMap ckEvent) s).sameCk (ckRun (es.filterMap ckEvent) s') := by
    obtain hsame | hclear := hstart
    · exact ckRun_sameCk hsame _
    · obtain ⟨as, has⟩ := List.head?_eq_some_iff.mp hclear
      rw [has]
      exact ckRun_sameCk (s := clearCk s) (s' := clearCk s') ⟨rfl, rfl, rfl⟩ as
  have hck : (afterEvents es s).sameCk (afterEvents es' s') :=
    (afterEvents_sameCk_ckRun hes s).trans
      (hrun.trans (hparts ▸ (afterEvents_sameCk_ckRun hes' s').symm))
  exact ⟨_, _, applyEvents_eq es s, applyEvents_eq es' s', hck, verdict_of_sameCk hck⟩

/-! ### The bytes fed after a clear -/

/-- An input whose CK part is a clear is one of those that clear. -/
theorem clearsOrResets_of_ckEvent_clear {e : HostEvent} (h : ckEvent e = some .clear) : clearsOrResets e = true := by
  obtain ⟨i, hi, hclear⟩ := Option.bind_eq_some_iff.mp h
  have : isClear i = true := by
    cases i with
    | ckInit | start => rfl
    | nop | fsArm | fsPoll | fsPollByte | ckByte => simp [ckActionOf] at hclear
  simp [clearsOrResets, hi, this]

/-- What neither clears nor resets can only feed its byte. -/
theorem ckEvent_of_not_clears {e : HostEvent} (h : clearsOrResets e = false) : ckEvent e = (fedByte e).map .feed := by
  cases hpart : ckEvent e with
  | none => simp [fedByte, hpart]
  | some a =>
    cases a with
    | clear => simp [clearsOrResets_of_ckEvent_clear hpart] at h
    | feed b => simp [fedByte, hpart]

theorem isReset_of_not_clears {e : HostEvent} (h : clearsOrResets e = false) : isReset e = false :=
  (Bool.or_eq_false_iff.mp h).1

/-- Inputs without a clear or a reset feed the CK their bytes. -/
theorem afterEvents_sameCk_feeds {es : List HostEvent} (hes : ∀ e ∈ es, clearsOrResets e = false) (s : State) :
    (afterEvents es s).sameCk (ckRun ((es.filterMap fedByte).map .feed) s) := by
  have hparts : es.filterMap ckEvent = (es.filterMap fedByte).map .feed := by
    rw [List.map_filterMap]
    exact List.filterMap_congr fun e he => ckEvent_of_not_clears (hes e he)
  exact hparts ▸ afterEvents_sameCk_ckRun (fun e he => isReset_of_not_clears (hes e he)) s

/-- CK_INIT and START clear the CK, from any state (R84, R94). -/
theorem afterEvent_clear_sameCk {clear : Instr} (h : clear = .ckInit ∨ clear = .start) (nowMs : Nat) (s : State) :
    (afterEvent (commandAt nowMs clear) s).sameCk (clearCk s) := by
  have hpart : ckEvent (commandAt nowMs clear) = some .clear := by obtain rfl | rfl := h <;> simp [ckActionOf]
  have hck := afterEvent_sameCk_ckEffect (e := commandAt nowMs clear) rfl s
  rwa [hpart] at hck

/-- A clear and inputs without another leave the CK as the fed bytes leave it from a cleared state. -/
theorem afterEvents_clear_sameCk_feeds {clear : Instr} (h : clear = .ckInit ∨ clear = .start) (nowMs : Nat)
    {es : List HostEvent} (hes : ∀ e ∈ es, clearsOrResets e = false) (s : State) :
    (afterEvents (commandAt nowMs clear :: es) s).sameCk
      (ckRun ((es.filterMap fedByte).map .feed) (clearCk s)) :=
  (afterEvents_sameCk_feeds hes _).trans (ckRun_sameCk (afterEvent_clear_sameCk h nowMs s) _)

end Sys2Proof.Machine
end

section
/-! Bytes fed in a row (R82, R85, R88, R92): how the count, the sum and the captured checksum follow from them. -/

namespace Sys2Proof.Machine

/-! ### The count (R92) -/

/-- A byte counts until the frame is complete. -/
theorem afterCommand_ckByte_ckCount {s : State} (h : s.ckCount.val < 30) (b : Byte) :
    (afterCommand (.ckByte b) s).ckCount.val = s.ckCount.val + 1 := by
  obtain ⟨h27, h⟩ | ⟨h28, h⟩ | ⟨h29, h⟩ | ⟨h30, _⟩ := afterCommand_ckByte_cases b s
  · rw [h]
    exact sumByte_ckCount_val (s := defaultConsumed s) h27 b
  · simp [h, h28]
  · simp [h, h29]
  · simp [h30] at h

theorem ckRun_feeds_ckCount {bs : List Byte} {s : State} (h : s.ckCount.val + bs.length ≤ 30) :
    (ckRun (bs.map .feed) s).ckCount.val = s.ckCount.val + bs.length := by
  induction bs generalizing s with
  | nil => rfl
  | cons b bs ih =>
    rw [List.length_cons] at h ⊢
    have hstep : (ckEffect s (some (.feed b))).ckCount.val = s.ckCount.val + 1 :=
      afterCommand_ckByte_ckCount (by omega) b
    rw [List.map_cons, ckRun_cons, ih (by omega)]
    omega

/-- Settles O41: the clear makes the count 0 and each byte adds 1. -/
theorem countIsTheNumberOfBytesReceived : Obligations.CountIsTheNumberOfBytesReceived := by
  intro s clear nowMs es hclear hes hlen
  refine ⟨_, applyEvents_eq _ s, ?_⟩
  obtain ⟨_, hcount, _⟩ := afterEvents_clear_sameCk_feeds hclear nowMs hes s
  rw [hcount, ckRun_feeds_ckCount (by simpa using hlen)]
  simp

/-! ### The frame (R88) -/

/-- The sum of the marker and the bytes: the document's `actual` (R88). -/
def frameSum (r : List Byte) : Word := BitVec.ofNat 16 (0x8F + (r.map BitVec.toNat).sum)

/-- Bytes at positions 0 to 27 are summed and leave `ck_exp`. -/
theorem ckRun_feeds_summed {r : List Byte} {s : State} (h : s.ckCount.val + r.length ≤ 28) :
    (ckRun (r.map .feed) s).ckSum = s.ckSum + BitVec.ofNat 16 (r.map BitVec.toNat).sum ∧
      (ckRun (r.map .feed) s).ckExp = s.ckExp := by
  induction r generalizing s with
  | nil => simp
  | cons b r ih =>
    rw [List.length_cons] at h
    have hb : ckEffect s (some (.feed b)) = sumByte b (defaultConsumed s) :=
      afterCommand_ckByte_of_le_27 b (by omega)
    have hcount : (sumByte b (defaultConsumed s)).ckCount.val = s.ckCount.val + 1 :=
      sumByte_ckCount_val (s := defaultConsumed s) (show s.ckCount.val ≤ 27 by omega) b
    obtain ⟨hsum, hexp⟩ := ih (s := sumByte b (defaultConsumed s)) (by omega)
    rw [List.map_cons, ckRun_cons, hb]
    refine ⟨?_, hexp⟩
    rw [hsum, List.map_cons, List.sum_cons, BitVec.ofNat_add, ← BitVec.add_assoc]
    simp [add16, zext16, ← BitVec.ofNat_toNat]

/-- Positions 28 and 29 capture the two halves of the checksum. -/
theorem ckRun_feeds_captured {s : State} (h : s.ckCount = 28) (hi lo : Byte) :
    ckRun [.feed hi, .feed lo] s = captureLow lo (defaultConsumed (captureHigh hi (defaultConsumed s))) := by
  have hhigh : ckEffect s (some (.feed hi)) = captureHigh hi (defaultConsumed s) := afterCommand_ckByte_of_28 hi h
  rw [ckRun_cons, hhigh]
  exact afterCommand_ckByte_of_29 (s := captureHigh hi (defaultConsumed s)) lo rfl

/-- The accumulator after a whole frame: the bytes `r` summed and `hi`, `lo` captured, high byte first (R88). -/
def State.holdsFrame (t : State) (r : List Byte) (hi lo : Byte) : Prop :=
  t.ckCount = 30 ∧ t.ckSum = frameSum r ∧ t.ckExp = hi ++ lo

/-- A clear and 30 bytes leave the accumulator holding the frame, whatever stands between them. -/
theorem afterEvents_clear_holdsFrame {clear : Instr} (hclear : clear = .ckInit ∨ clear = .start) (nowMs : Nat)
    {es : List HostEvent} (hes : ∀ e ∈ es, clearsOrResets e = false) {r : List Byte} {hi lo : Byte}
    (hr : r.length = 28) (hfed : es.filterMap fedByte = r ++ [hi, lo]) (s : State) :
    (afterEvents (commandAt nowMs clear :: es) s).holdsFrame r hi lo := by
  have hck := afterEvents_clear_sameCk_feeds hclear nowMs hes s
  have hcount28 : (ckRun (r.map .feed) (clearCk s)).ckCount = 28 :=
    Fin.ext (by rw [ckRun_feeds_ckCount (by simp [hr]), hr]; rfl)
  obtain ⟨hsummed, _⟩ := ckRun_feeds_summed (r := r) (s := clearCk s) (by simp [hr])
  rw [hfed, List.map_append, ckRun_append, List.map_cons, List.map_cons, List.map_nil,
    ckRun_feeds_captured hcount28] at hck
  obtain ⟨hsum, hcount, hexp⟩ := hck
  refine ⟨hcount, ?_, ?_⟩
  · rw [hsum]
    exact hsummed.trans (by rw [frameSum, BitVec.ofNat_add]; rfl)
  · rw [hexp]
    exact congrArg (bigEndian16 · lo) (highByte_bigEndian16 hi _)

/-! ### No overrun within a frame -/

/-- No input but a CK_BYTE after a complete frame touches CK_OVERRUN, resets apart (R99). -/
theorem afterEvent_overrunBit {e : HostEvent} {s : State} (he : isReset e = false)
    (h : fedByte e = none ∨ s.ckCount.val < 30) : (afterEvent e s).fault &&& 0b10#2 = s.fault &&& 0b10#2 := by
  obtain ⟨rfl, _⟩ | ⟨w, nowMs, i, rfl, hdecode, hi⟩ | ⟨_, nowMs, _, _, _, hillegal⟩ := afterEvent_cases e s
  · simp [isReset] at he
  · rw [hi]
    obtain hkept | ⟨⟨⟨b, rfl⟩, hcount⟩, _⟩ := afterCommand_fault_cases i (sampleNow nowMs s)
    · exact congrArg (· &&& 0b10#2) hkept
    · have hfed : fedByte (.command w nowMs) = some b := by
        simp [fedByte, ckEvent_of_decode_ok hdecode, ckActionOf]
      simp only [sampleNow_ckCount] at hcount
      simp [hfed, hcount] at h
  · have hbit : ∀ f : BitVec 2, (f ||| faultMask .illegalCmd) &&& 0b10#2 = f &&& 0b10#2 := by decide
    rw [hillegal, takeFault_fault, hbit, sampleNow_fault]

/-- So up to the 30th byte CK_OVERRUN stands: before each byte the count is that of the bytes already fed. -/
theorem afterEvents_overrunBit {es : List HostEvent} {s : State} (hes : ∀ e ∈ es, clearsOrResets e = false)
    (h : s.ckCount.val + (es.filterMap fedByte).length ≤ 30) :
    (afterEvents es s).fault &&& 0b10#2 = s.fault &&& 0b10#2 := by
  induction es using List.reverseRecOn with
  | nil => rfl
  | append_singleton es e ih =>
    obtain ⟨hes, he⟩ : (∀ e ∈ es, clearsOrResets e = false) ∧ clearsOrResets e = false := by
      simpa [or_imp, forall_and] using hes
    rw [List.filterMap_append, List.length_append] at h
    obtain ⟨_, hfeeds, _⟩ := afterEvents_sameCk_feeds hes s
    have hcount : (afterEvents es s).ckCount.val = s.ckCount.val + (es.filterMap fedByte).length := by
      rw [hfeeds, ckRun_feeds_ckCount (by omega)]
    have hlast : fedByte e = none ∨ (afterEvents es s).ckCount.val < 30 := by
      cases hfed : fedByte e with
      | none => exact .inl rfl
      | some b =>
        rw [List.filterMap_cons_some hfed, List.length_cons] at h
        exact .inr (by omega)
    calc (afterEvents (es ++ [e]) s).fault &&& 0b10#2
        = (afterEvent e (afterEvents es s)).fault &&& 0b10#2 := by rw [afterEvents_append]; rfl
      _ = (afterEvents es s).fault &&& 0b10#2 := afterEvent_overrunBit (isReset_of_not_clears he) hlast
      _ = s.fault &&& 0b10#2 := ih hes (by omega)

/-- Settles O40: the accumulator holds the frame, and 30 bytes are not one too many. -/
theorem thirtyBytesGiveTheValidatorsVerdict : Obligations.ThirtyBytesGiveTheValidatorsVerdict := by
  intro s clear nowMs es r hi lo hclear hes hr hfed
  obtain ⟨hcount, hsum, hexp⟩ := afterEvents_clear_holdsFrame hclear nowMs hes hr hfed s
  refine ⟨_, applyEvents_eq _ s, hcount, by rw [hsum, ofNat_mod_65536, frameSum], hexp, ?isMatch, ?isMismatch, ?fault⟩
  case isMatch => rw [ckMatch_iff, and_iff_right hcount]
  case isMismatch => rw [ckMismatch_iff, and_iff_right hcount]
  case fault =>
    have hnofeed : fedByte (commandAt nowMs clear) = none := by
      obtain rfl | rfl := hclear <;> simp [fedByte, ckActionOf]
    obtain ⟨_, hcleared, _⟩ := afterEvent_clear_sameCk hclear nowMs s
    calc (afterEvents es (afterEvent (commandAt nowMs clear) s)).fault &&& 0b10#2
        = (afterEvent (commandAt nowMs clear) s).fault &&& 0b10#2 :=
          afterEvents_overrunBit hes (by simp [hcleared, hfed, hr])
      _ = s.fault &&& 0b10#2 := afterEvent_overrunBit rfl (.inl hnofeed)

end Sys2Proof.Machine
end

section
/-! One changed byte (R90): the sum or the captured checksum moves, never both. -/

namespace Sys2Proof.Machine

/-- Another byte at one position gives another sum: the two differ by less than 256. -/
theorem frameSum_set_ne {r : List Byte} {k : Nat} {b b' : Byte} (hk : r[k]? = some b) (hne : b' ≠ b) :
    frameSum (r.set k b') ≠ frameSum r := by
  obtain ⟨hlt, hget⟩ := List.getElem?_eq_some_iff.mp hk
  have hsum : (r.map BitVec.toNat).sum =
      ((r.take k).map BitVec.toNat).sum + b.toNat + ((r.drop (k + 1)).map BitVec.toNat).sum := by
    conv_lhs => rw [← List.take_append_drop k r, List.drop_eq_getElem_cons hlt, hget]
    simp [Nat.add_assoc]
  have hset : ((r.set k b').map BitVec.toNat).sum =
      ((r.take k).map BitVec.toNat).sum + b'.toNat + ((r.drop (k + 1)).map BitVec.toNat).sum := by
    rw [List.set_eq_take_append_cons_drop, if_pos hlt]
    simp [Nat.add_assoc]
  have hb := b.isLt
  have hb' := b'.isLt
  have hnat : b'.toNat ≠ b.toNat := fun h => hne (BitVec.eq_of_toNat_eq h)
  intro h
  have hmod := congrArg BitVec.toNat h
  simp only [frameSum, BitVec.toNat_ofNat, hsum, hset] at hmod
  omega

/-- Another byte at one position makes a matching frame a mismatching one. -/
theorem frame_set_mismatches {r : List Byte} (hr : r.length = 28) {hi lo : Byte} (hmatch : frameSum r = hi ++ lo)
    {k : Nat} {b b' : Byte} (hk : (r ++ [hi, lo])[k]? = some b) (hne : b' ≠ b) :
    ∃ r' hi' lo', (r ++ [hi, lo]).set k b' = r' ++ [hi', lo'] ∧ r'.length = 28 ∧ frameSum r' ≠ hi' ++ lo' := by
  obtain hlt | hge := Nat.lt_or_ge k r.length
  · rw [List.getElem?_append_left hlt] at hk
    exact ⟨r.set k b', hi, lo, List.set_append_left k b' hlt, by simp [hr], hmatch ▸ frameSum_set_ne hk hne⟩
  · obtain ⟨j, rfl⟩ := Nat.exists_eq_add_of_le hge
    rw [List.getElem?_append_right hge, Nat.add_sub_cancel_left] at hk
    rw [List.set_append_right _ b' hge, Nat.add_sub_cancel_left]
    match j with
    | 0 =>
      obtain rfl : hi = b := by simpa using hk
      refine ⟨r, b', lo, rfl, hr, fun h => hne ?_⟩
      simpa using congrArg highByte (show bigEndian16 b' lo = bigEndian16 hi lo from h.symm.trans hmatch)
    | 1 =>
      obtain rfl : lo = b := by simpa using hk
      refine ⟨r, hi, b', rfl, hr, fun h => hne ?_⟩
      simpa using congrArg lowByte (show bigEndian16 hi b' = bigEndian16 hi lo from h.symm.trans hmatch)
    | j + 2 => simp at hk

/-- A flipped bit makes another byte. -/
theorem xor_shiftLeft_one_ne {j : Nat} (hj : j < 8) (b : Byte) : b ^^^ (1#8 <<< j) ≠ b := by
  intro h
  have hbit := congrArg (·.getLsbD j) h
  simp [hj] at hbit

/-- A frame fed whole leaves the accumulator holding it. -/
theorem afterEvents_frameEvents_holdsFrame {r : List Byte} (hr : r.length = 28) (hi lo : Byte) (nowMs : Nat)
    (s : State) : (afterEvents (frameEvents nowMs (r ++ [hi, lo])) s).holdsFrame r hi lo := by
  refine afterEvents_clear_holdsFrame (.inl rfl) nowMs (fun e he => ?_) hr ?_ s
  · obtain ⟨b, _, rfl⟩ := List.mem_map.mp he
    exact clearsOrResets_commandAt nowMs (.ckByte b)
  · simp [List.filterMap_map]

/-- Settles O43: the flipped bit makes another byte, and another byte moves one of the two sides of the match. -/
theorem singleBitFlipMismatches : Obligations.SingleBitFlipMismatches := by
  intro s nowMs frame k j b hlen hk hj
  refine ⟨_, _, applyEvents_eq _ s, applyEvents_eq _ s, fun hmatch => ?_⟩
  obtain ⟨hi, lo, hlast⟩ := List.length_eq_two.mp (show (frame.drop 28).length = 2 by simp [hlen])
  obtain ⟨r, rfl, hr⟩ : ∃ r, frame = r ++ [hi, lo] ∧ r.length = 28 :=
    ⟨frame.take 28, by rw [← hlast, List.take_append_drop], by simp [hlen]⟩
  obtain ⟨_, hsum, hexp⟩ := afterEvents_frameEvents_holdsFrame hr hi lo nowMs s
  have heq : frameSum r = hi ++ lo := by rw [← hsum, ← hexp]; exact ((ckMatch_iff _).mp hmatch).2
  obtain ⟨r', hi', lo', hset, hr', hne⟩ := frame_set_mismatches hr heq hk (xor_shiftLeft_one_ne hj b)
  obtain ⟨hcount, hsum', hexp'⟩ := afterEvents_frameEvents_holdsFrame hr' hi' lo' nowMs s
  rw [hset, ckMismatch_iff, hsum', hexp']
  exact ⟨hcount, hne⟩

end Sys2Proof.Machine
end

section
/-! The control commands NOP (R93) and START (R94, R95). -/

namespace Sys2Proof.Machine

/-- A host's command has the command's effect at its sample. -/
theorem applyEvent_commandAt (nowMs : Nat) (i : Instr) (s : State) :
    applyEvent (commandAt nowMs i) s = .next (afterCommand i (sampleNow nowMs s)) := by
  rw [applyEvent_eq, commandAt, afterEvent_of_decode_ok (decode_encode i)]

/-- START is FS_ARM and then CK_INIT at the same sample: the second default of `fs_consumed` changes nothing more. -/
theorem afterCommand_start_eq_arm_clear (s : State) :
    afterCommand .start s = afterCommand .ckInit (afterCommand .fsArm s) := rfl

/-- The outputs read their NOW from the argument, not from the sample of the latest step (R24). -/
theorem outputs_with_now (s : State) (n now : Nat) : outputs { s with now := n } now = outputs s now := rfl

/-- Settles O15: all that NOP does is the default of `fs_consumed`. -/
theorem nopHoldsEveryRegister : Obligations.NopHoldsEveryRegister := by
  refine ⟨rfl, exec_eq_afterCommand .nop,
    fun s nowMs => ⟨_, applyEvent_commandAt nowMs .nop s, ?registers, ?outputs⟩⟩
  case registers => exact ⟨⟨rfl, rfl, rfl⟩, .refl s, rfl⟩
  case outputs => exact outputs_with_now { s with fsConsumed := false } _ _

/-- Settles O16: HUNT is neither result of the FS, and at count 0 the CK has no verdict. -/
theorem startArmsAndClears : Obligations.StartArmsAndClears := by
  refine ⟨rfl, fun s => ⟨_, exec_eq_afterCommand .start s, ?state, rfl, rfl, rfl, rfl, rfl,
    _, _, exec_eq_afterCommand .fsArm s, exec_eq_afterCommand .ckInit _, ?agree⟩⟩
  case state => rw [← seed_eq]; rfl
  case agree =>
    rw [afterCommand_start_eq_arm_clear]
    exact ⟨⟨rfl, rfl, rfl⟩, .refl _⟩

/-- Settles O17: at one sample START is the two commands, and CK_INIT does the same at any other. -/
theorem startIsArmThenClear : Obligations.StartIsArmThenClear := by
  intro s t t'
  refine ⟨_, _, _, applyEvent_commandAt t .start s, applyEvent_commandAt t .fsArm s,
    applyEvent_commandAt t' .ckInit _, ?registers, ?armKept, ?ckKept⟩
  case registers =>
    rw [afterCommand_start_eq_arm_clear, sampleNow, sampleNow, afterCommand_with_now (.inr (.inl rfl))]
    exact .of_now _ _
  case armKept => exact ⟨rfl, rfl, rfl⟩
  case ckKept => exact (afterCommand_sameCk_ckEffect .fsArm (sampleNow t s)).symm

end Sys2Proof.Machine
end

section
/-! The clock between polls (R107, R112): what an expired deadline is at a later count, and that an FS_POLL without a
byte leaves nothing for the next FS_POLL to find. -/

namespace Sys2Proof.Machine

/-- Settles O14: R107 below the wrap, and its example by computing the difference. -/
theorem elapsedIsTrueBelowTheWrap : Obligations.ElapsedIsTrueBelowTheWrap :=
  ⟨fun _ _ _ => tickSub_sampleClock, rfl⟩

/-- `applyEvent_commandAt`, of the state it leads to. -/
theorem afterEvent_commandAt (nowMs : Nat) (i : Instr) (s : State) :
    afterEvent (commandAt nowMs i) s = afterCommand i (sampleNow nowMs s) :=
  afterEvent_of_decode_ok (decode_encode i) nowMs s

/-- Below the wrap a deadline that has passed stays passed at every later count (R60, R107). -/
theorem expired_sampleClock_mono {s : State} {armMs earlierMs nowMs : Nat}
    (hstart : s.fsTStart = sampleClock s.cfg armMs)
    (harm : armMs ≤ earlierMs) (hle : earlierMs ≤ nowMs) (hlt : nowMs - armMs < 2 ^ s.cfg.tickBits)
    (h : expired s (sampleClock s.cfg earlierMs) = true) : expired s (sampleClock s.cfg nowMs) = true := by
  rw [expired_iff, hstart] at h ⊢
  rw [tickSub_sampleClock harm (by omega)] at h
  rw [tickSub_sampleClock (harm.trans hle) hlt]
  omega

/-- A poll before another is not seen in the state after both, if what has expired at its own count has expired at the
later one: it times out a hunt that the later poll would, or writes only what the later poll writes (R70, R71). -/
theorem afterEvent_fsPoll_fsPoll {s : State} {earlierMs nowMs : Nat}
    (h : expired s (sampleClock s.cfg earlierMs) = true → expired s (sampleClock s.cfg nowMs) = true) :
    afterEvent (commandAt nowMs .fsPoll) (afterEvent (commandAt earlierMs .fsPoll) s) =
      afterEvent (commandAt nowMs .fsPoll) s := by
  simp only [afterEvent_commandAt]
  obtain ⟨hhunt, hlate, hpoll⟩ | ⟨_, hpoll⟩ := afterCommand_fsPoll_cases (sampleNow earlierMs s) <;> rw [hpoll]
  case inl =>
    rw [afterCommand_fsPoll_of_expired (s := sampleNow nowMs s) hhunt (h hlate)]
    exact afterCommand_fsPoll_of_not_expired (by simp [hunting])
  case inr => rfl

/-- A poll keeps what the deadline test reads. -/
theorem expired_afterEvent_fsPoll (earlierMs now : Nat) (s : State) :
    expired (afterEvent (commandAt earlierMs .fsPoll) s) now = expired s now := by
  rw [afterEvent_commandAt]
  obtain ⟨_, _, hpoll⟩ | ⟨_, hpoll⟩ := afterCommand_fsPoll_cases (sampleNow earlierMs s) <;> rw [hpoll] <;> rfl

/-- So with any number of polls before the last. -/
theorem afterEvents_fsPolls {nowMs : Nat} {earlier : List Nat} {s : State}
    (h : ∀ x ∈ earlier, expired s (sampleClock s.cfg x) = true → expired s (sampleClock s.cfg nowMs) = true) :
    afterEvents (earlier.map (commandAt · .fsPoll) ++ [commandAt nowMs .fsPoll]) s =
      afterEvent (commandAt nowMs .fsPoll) s := by
  induction earlier generalizing s with
  | nil => rfl
  | cons x earlier ih =>
    obtain ⟨hx, hearlier⟩ := List.forall_mem_cons.mp h
    calc afterEvents ((x :: earlier).map (commandAt · .fsPoll) ++ [commandAt nowMs .fsPoll]) s
        = afterEvent (commandAt nowMs .fsPoll) (afterEvent (commandAt x .fsPoll) s) :=
          ih (by simpa only [expired_afterEvent_fsPoll, afterEvent_cfg] using hearlier)
      _ = afterEvent (commandAt nowMs .fsPoll) s := afterEvent_fsPoll_fsPoll hx

/-- Settles O34: without a wrap the deadline test is monotone, so the last poll finds all that the earlier ones found. -/
theorem suspendedHostGetsTheSameResult : Obligations.SuspendedHostGetsTheSameResult := by
  intro s armMs nowMs earlier hstart hlt _ hearlier
  refine ⟨_, _, applyEvents_eq _ s, applyEvent_eq _ s, ?_⟩
  rw [afterEvents_fsPolls fun x hx =>
    expired_sampleClock_mono hstart (hearlier x hx).1 (hearlier x hx).2 hlt]
  exact ⟨⟨rfl, rfl, rfl⟩, .refl _, rfl⟩

end Sys2Proof.Machine
end

section
/-! A completed frame (R97) and the exact causes of a fault (R99, R101, R124). -/

namespace Sys2Proof.Machine

/-! ### The verdict of a completed frame -/

/-- Bytes fed after a completed frame are dropped (R87). -/
theorem ckRun_feeds_of_complete {s : State} (h : s.ckCount = 30) (bs : List Byte) :
    (ckRun (bs.map .feed) s).sameCk s := by
  induction bs generalizing s with
  | nil => exact .refl s
  | cons b bs ih =>
    have hoverrun : ckEffect s (some (.feed b)) = takeFault .ckOverrun s := afterCommand_ckByte_of_30 b h
    rw [List.map_cons, ckRun_cons, hoverrun]
    exact ih (s := takeFault .ckOverrun s) h

/-- Settles O44: inputs without a clear or a reset only feed bytes, and the verdict is read from the CK registers. -/
theorem verdictHoldsUntilTheNextClear : Obligations.VerdictHoldsUntilTheNextClear := by
  intro s es h30 hes
  have hck : (afterEvents es s).sameCk s := (afterEvents_sameCk_feeds hes s).trans (ckRun_feeds_of_complete h30 _)
  exact ⟨_, applyEvents_eq es s, hck, verdict_of_sameCk hck⟩

/-! ### Who raises a fault -/

/-- Opcode 5 is CK_BYTE's (R51). -/
theorem opcodeOf_eq_5_iff (i : Instr) : opcodeOf i = 0x5#4 ↔ ∃ b, i = .ckByte b := by
  cases i <;> simp [opcodeOf]

/-- A command's effect on `fault`, exactly: a CK_BYTE after a completed frame sets bit 1 (R87, R99). -/
theorem afterCommand_fault (i : Instr) (s : State) :
    (afterCommand i s).fault = if opcodeOf i = 0x5#4 ∧ s.ckCount = 30 then s.fault ||| 0b10#2 else s.fault := by
  split
  case isTrue h =>
    obtain ⟨hop, h30⟩ := h
    obtain ⟨b, rfl⟩ := (opcodeOf_eq_5_iff i).mp hop
    rw [afterCommand_ckByte_of_30 b h30]
    rfl
  case isFalse h =>
    exact (afterCommand_fault_cases i s).resolve_right fun ⟨⟨hbyte, h30⟩, _⟩ =>
      h ⟨(opcodeOf_eq_5_iff i).mpr hbyte, h30⟩

/-- Settles O45: a reset clears both bits, an illegal word takes its fault, and a legal word's opcode is that of its
command. -/
theorem faultBitsAreRaisedExactly : Obligations.FaultBitsAreRaisedExactly := by
  intro s t e rest hinbox hstep
  obtain rfl : afterEvent e (acceptInput rest s) = t := by simpa [step_of_inbox hinbox] using hstep
  cases e with
  | reset => rfl
  | command w nowMs =>
    dsimp only
    split
    case isTrue hillegal => rw [afterEvent_of_not_legal hillegal]; rfl
    case isFalse hlegal =>
      obtain ⟨i, hdecode⟩ := (legal_iff_decodes w).mp (Bool.eq_true_of_not_eq_false hlegal)
      obtain ⟨hop, _⟩ := fields_of_decode hdecode
      rw [afterEvent_of_decode_ok hdecode, afterCommand_fault, ← hop]
      rfl

/-! ### A host that keeps the duty of R124 -/

/-- A command without a CK part keeps `fault` and the count. -/
theorem afterCommand_of_no_ckAction {i : Instr} (h : ckActionOf i = none) (s : State) :
    (afterCommand i s).fault = s.fault ∧ (afterCommand i s).ckCount = s.ckCount := by
  obtain ⟨_, hcount, _⟩ := afterCommand_sameCk_ckEffect i s
  rw [h] at hcount
  refine ⟨(afterCommand_fault_cases i s).resolve_right ?_, hcount⟩
  rintro ⟨⟨⟨b, rfl⟩, _⟩, _⟩
  simp [ckActionOf] at h

/-- Before the 31st byte no command raises a fault, and the count is again that of the bytes fed since the clear. -/
theorem afterCommand_of_feedsWithinFrame {i : Instr} {is : List Instr} {s : State}
    (h : feedsWithinFrame s.ckCount.val (i :: is) = true) :
    (afterCommand i s).fault = s.fault ∧ feedsWithinFrame (afterCommand i s).ckCount.val is = true := by
  cases i with
  | ckByte b =>
    obtain ⟨hlt, hrest⟩ : s.ckCount.val < frameLen ∧ feedsWithinFrame (s.ckCount.val + 1) is = true := by
      simpa [feedsWithinFrame] using h
    rw [afterCommand_ckByte_ckCount hlt]
    refine ⟨(afterCommand_fault_cases (.ckByte b) s).resolve_right fun ⟨⟨_, h30⟩, _⟩ => ?_, hrest⟩
    simp [h30, frameLen] at hlt
  | ckInit | start => exact ⟨rfl, h⟩
  | nop | fsArm | fsPoll | fsPollByte =>
    refine And.imp_right (fun hcount => ?_) (afterCommand_of_no_ckAction rfl s)
    rw [hcount]
    exact h

/-- Any commands within the duty keep `fault`, by induction over them. -/
theorem afterEvents_fault_of_feedsWithinFrame {cmds : List (Nat × Instr)} {s : State}
    (h : feedsWithinFrame s.ckCount.val (cmds.map Prod.snd) = true) :
    (afterEvents (cmds.map fun c => commandAt c.1 c.2) s).fault = s.fault := by
  induction cmds generalizing s with
  | nil => rfl
  | cons c cmds ih =>
    obtain ⟨hfault, hrest⟩ := afterCommand_of_feedsWithinFrame (s := sampleNow c.1 s) h
    rw [← afterEvent_commandAt] at hfault hrest
    exact (ih hrest).trans hfault

/-- Settles O47: the duty keeps the count below 30 at every CK_BYTE, and no other legal command can raise a fault. -/
theorem dutifulHostRaisesNoFault : Obligations.DutifulHostRaisesNoFault := by
  intro s cmds hduty
  have hfault := afterEvents_fault_of_feedsWithinFrame hduty
  exact ⟨_, applyEvents_eq _ s, hfault, hfault.trans⟩

end Sys2Proof.Machine
end

section
/-! Reset (R113) and what follows it (R114): outside the hunt nothing but an arm or a reset moves the FS. -/

namespace Sys2Proof.Machine

/-- Settles O1: the reset event leaves the state of `State.resetFor`, but for the sample and the waiting inputs. -/
theorem resetWritesEveryRegister : Obligations.ResetWritesEveryRegister := by
  refine ⟨fun c => ⟨rfl, rfl, rfl, rfl, rfl, rfl, rfl⟩, ⟨⟨rfl, rfl, rfl⟩, .refl _, rfl⟩,
    fun s rest hinbox => ⟨_, step_of_inbox hinbox, ?_, rfl, rfl⟩⟩
  exact ⟨⟨rfl, rfl, rfl⟩, .refl (State.resetFor s.cfg), rfl⟩

/-- Outside the hunt an input that neither arms nor resets writes only the default of `fs_consumed` (R69, R71). -/
theorem afterEvent_sameFs_of_not_hunting {e : HostEvent} {s : State} (he : armsOrResets e = false)
    (h : hunting s.fsState = false) : (afterEvent e s).sameFs (defaultConsumed s) := by
  refine ⟨afterEvent_fsState_of_not_hunting he h, (afterEvent_deadlineStands he (.inr h)).1, ?_⟩
  obtain ⟨hconsumed, _⟩ | ⟨_, _, hhunt, _⟩ := afterEvent_fsState_cases he s
  · exact hconsumed
  · simp [h] at hhunt

/-- So along any such inputs the FS stands, and no byte is taken. -/
theorem afterEvents_sameFs_of_not_hunting {es : List HostEvent} (hes : ∀ e ∈ es, armsOrResets e = false)
    {s : State} (h : hunting s.fsState = false) (hs : s.fsConsumed = false) :
    (afterEvents es s).sameFs s ∧ consumedBytes es s = [] := by
  induction es generalizing s with
  | nil => exact ⟨⟨rfl, rfl, rfl⟩, rfl⟩
  | cons e es ih =>
    obtain ⟨he, hes⟩ := List.forall_mem_cons.mp hes
    obtain ⟨hstate, hstart, hconsumed⟩ := afterEvent_sameFs_of_not_hunting he h
    obtain ⟨⟨hstate', hstart', hconsumed'⟩, hbytes⟩ := ih hes (s := afterEvent e s) (by rwa [hstate]) hconsumed
    refine ⟨⟨hstate'.trans hstate, hstart'.trans hstart, hconsumed'.trans (hconsumed.trans hs.symm)⟩, ?_⟩
    simp [consumedBytes_cons, takenBytes, hconsumed, hbytes]

/-- Settles O2: reset leaves the FS outside the hunt and the count at 0. -/
theorem afterResetPollsDoNothingAndChecksumIsReady :
    Obligations.AfterResetPollsDoNothingAndChecksumIsReady := by
  refine ⟨fun c es hes => ⟨_, applyEvents_eq es _, ?fs⟩, fun c b => ⟨_, exec_eq_afterCommand (.ckByte b) _, ?ck⟩⟩
  case fs => exact afterEvents_sameFs_of_not_hunting hes rfl rfl
  case ck =>
    rw [afterCommand_ckByte_of_le_27 b (Nat.zero_le 27)]
    exact ⟨rfl, rfl, rfl, rfl⟩

end Sys2Proof.Machine
end

section
/-! The host's polls and the true deadline (R118, R121): a poll with or without a byte, by the deadline test. -/

namespace Sys2Proof.Machine

section
variable {s : State}

/-- At an expired deadline a poll ends the hunt, whether it offers a byte or not (R70, R75). -/
theorem afterCommand_pollFor_of_expired (hhunt : hunting s.fsState = true) (h : expired s s.now = true)
    (b : Option Byte) : afterCommand (pollFor b) s = timeOut (defaultConsumed s) := by
  cases b with
  | none => exact afterCommand_fsPoll_of_expired hhunt h
  | some b => exact afterCommand_fsPollByte_of_expired b hhunt h

/-- In the hunt a byte leads to SYNCED or the hunt goes on. -/
theorem detectorNext_synced_or_hunting {st : FsState} (h : hunting st = true) (p : ResyncPolicy) (b : Byte) :
    detectorNext p st b = .synced ∨ hunting (detectorNext p st b) = true := by
  obtain ⟨hnext, _⟩ | ⟨hnext, _⟩ | ⟨hnext, _⟩ := detectorNext_cases p st b h
  · exact .inl hnext
  · exact .inr (by rw [hnext]; rfl)
  · exact .inr (by rw [hnext]; rfl)

/-- Before the deadline a poll of the hunt syncs, or the hunt goes on with the deadline it had (R70, R74, R76). -/
theorem afterCommand_pollFor_of_not_expired (hhunt : hunting s.fsState = true) (h : expired s s.now = false)
    (b : Option Byte) : (afterCommand (pollFor b) s).fsState = .synced ∨
      hunting (afterCommand (pollFor b) s).fsState = true ∧
        (afterCommand (pollFor b) s).fsTStart = s.fsTStart := by
  cases b with
  | none =>
    have hpoll : afterCommand (pollFor none) s = defaultConsumed s :=
      afterCommand_fsPoll_of_not_expired (by simp [h])
    rw [hpoll]
    exact .inr ⟨hhunt, rfl⟩
  | some b =>
    have hpoll : afterCommand (pollFor (some b)) s = consumeByte b (defaultConsumed s) :=
      afterCommand_fsPollByte_of_not_expired b hhunt h
    rw [hpoll, consumeByte_fsState, consumeByte_fsTStart]
    refine (detectorNext_synced_or_hunting hhunt s.cfg.resyncPolicy b).imp_right fun hnext => ⟨hnext, if_neg ?_⟩
    rintro ⟨hsynced, _⟩
    have hsynced : detectorNext s.cfg.resyncPolicy s.fsState b = .synced := hsynced
    simp [hsynced, hunting] at hnext

theorem armsOrResets_commandAt (nowMs : Nat) (i : Instr) : armsOrResets (commandAt nowMs i) = isArm i := by
  rw [armsOrResets, commandOf_commandAt]
  rfl

/-- A poll is no arm and no reset. -/
theorem armsOrResets_pollFor (nowMs : Nat) (b : Option Byte) : armsOrResets (commandAt nowMs (pollFor b)) = false := by
  rw [armsOrResets_commandAt]
  cases b <;> rfl

/-! ### A count from before the arm (R118) -/

/-- The sample is the same one wrap later. -/
theorem sampleClock_add_wrap (c : Config) (nowMs : Nat) :
    sampleClock c (nowMs + 2 ^ c.tickBits) = sampleClock c nowMs :=
  Nat.add_mod_right _ _

/-- A count `back` before the start is seen as the count one wrap later (R25, R118). -/
theorem tickSub_sampleClock_stale {c : Config} {armMs back : Nat} (hpos : 0 < back) (harm : back ≤ armMs)
    (hwrap : back ≤ 2 ^ c.tickBits) :
    tickSub c.tickBits (sampleClock c (armMs - back)) (sampleClock c armMs) = 2 ^ c.tickBits - back := by
  rw [← sampleClock_add_wrap c (armMs - back), tickSub_sampleClock (by omega) (by omega)]
  omega

/-- Settles O35: the wrapped elapsed time `2^TICK_BITS - back` is at least the budget. -/
theorem staleClockTimesOut : Obligations.StaleClockTimesOut := by
  intro s armMs back b hhunt hstart hpos harm hwrap
  have helapsed : fsElapsed s (sampleClock s.cfg (armMs - back)) = 2 ^ s.cfg.tickBits - back := by
    rw [fsElapsed, hstart]
    exact tickSub_sampleClock_stale hpos harm (by omega)
  have hlate : expired s (sampleClock s.cfg (armMs - back)) = true := by
    rw [expired, helapsed, decide_eq_true_iff]
    omega
  refine ⟨_, applyEvent_commandAt _ _ s, ?_⟩
  rw [afterCommand_pollFor_of_expired (s := sampleNow (armMs - back) s) hhunt hlate b]
  exact ⟨helapsed, rfl, rfl⟩

/-! ### Polls within the wrap bound (R121) -/

/-- Below the wrap the deadline test is the true one (R60, R107). -/
theorem expired_sampleClock_iff {armMs nowMs : Nat} (hstart : s.fsTStart = sampleClock s.cfg armMs)
    (hle : armMs ≤ nowMs) (hlt : nowMs - armMs < 2 ^ s.cfg.tickBits) :
    expired s (sampleClock s.cfg nowMs) = true ↔ armMs + s.cfg.budgetMs ≤ nowMs := by
  rw [expired_iff, hstart, tickSub_sampleClock hle hlt]
  omega

/-- A hunt whose latest poll, at `lastMs`, was no later than the true deadline: spaced polls find the deadline before
the wrap. The first one at or after it ends the hunt in TIMEOUT; until then the hunt goes on or a sync ends it. -/
theorem afterEvents_spaced_polls {polls : List (Nat × Option Byte)} {armMs lastMs : Nat}
    (hhunt : hunting s.fsState = true) (hstart : s.fsTStart = sampleClock s.cfg armMs)
    (harm : armMs ≤ lastMs) (hlast : lastMs ≤ armMs + s.cfg.budgetMs)
    (hspaced : pollsWithinWrap s.cfg lastMs (polls.map Prod.fst) = true) :
    ((∃ p ∈ polls, armMs + s.cfg.budgetMs ≤ p.1) →
        hunting (afterEvents (polls.map fun p => commandAt p.1 (pollFor p.2)) s).fsState = false) ∧
      ((afterEvents (polls.map fun p => commandAt p.1 (pollFor p.2)) s).fsState = .timeout →
        ∃ p ∈ polls, armMs + s.cfg.budgetMs ≤ p.1) := by
  induction polls generalizing s lastMs with
  | nil =>
    refine ⟨by simp, fun htimeout => ?_⟩
    have htimeout : s.fsState = .timeout := htimeout
    simp [htimeout, hunting] at hhunt
  | cons p polls ih =>
    obtain ⟨⟨hle, hlt⟩, hrest⟩ : (lastMs ≤ p.1 ∧ p.1 - lastMs < 2 ^ s.cfg.tickBits - s.cfg.budgetMs) ∧
        pollsWithinWrap s.cfg p.1 (polls.map Prod.fst) = true := by simpa [pollsWithinWrap] using hspaced
    have hdeadline := expired_sampleClock_iff hstart (harm.trans hle) (by omega)
    have hpolls : ∀ e ∈ polls.map fun p => commandAt p.1 (pollFor p.2), armsOrResets e = false :=
      List.forall_mem_map.mpr fun p _ => armsOrResets_pollFor p.1 p.2
    rw [List.map_cons, afterEvents, afterEvent_commandAt]
    cases hexpired : expired s (sampleClock s.cfg p.1) with
    | true =>
      rw [afterCommand_pollFor_of_expired (s := sampleNow p.1 s) hhunt hexpired,
        afterEvents_fsState_of_not_hunting hpolls rfl]
      exact ⟨fun _ => rfl, fun _ => ⟨p, List.mem_cons_self, hdeadline.mp hexpired⟩⟩
    | false =>
      have hbefore : ¬armMs + s.cfg.budgetMs ≤ p.1 := by rw [← hdeadline, hexpired]; exact nofun
      obtain hsynced | ⟨hstill, hkept⟩ :=
        afterCommand_pollFor_of_not_expired (s := sampleNow p.1 s) hhunt hexpired p.2
      · have hover : hunting (afterCommand (pollFor p.2) (sampleNow p.1 s)).fsState = false := by rw [hsynced]; rfl
        rw [afterEvents_fsState_of_not_hunting hpolls hover, hsynced]
        exact ⟨fun _ => rfl, nofun⟩
      · have hnext := ih (s := afterCommand (pollFor p.2) (sampleNow p.1 s)) (lastMs := p.1) hstill
        simp only [afterCommand_cfg, sampleNow_cfg] at hnext
        simpa [hbefore] using hnext (hkept.trans hstart) (harm.trans hle) (by omega) hrest

end

/-- Settles O33: at the arm no poll has come after the deadline yet. -/
theorem spacedPollsNeverMissTheDeadline : Obligations.SpacedPollsNeverMissTheDeadline := by
  intro s armMs polls _ hhunt hstart hspaced
  exact ⟨_, applyEvents_eq _ s, afterEvents_spaced_polls hhunt hstart le_rfl (Nat.le_add_right _ _) hspaced⟩

end Sys2Proof.Machine
end

section
/-! One frame attempt (R117): the commands of an attempt that finds its marker at once, and what they lead to. -/

namespace Sys2Proof.Machine

/-- The inputs of commands with the clock counts of their steps (R58). -/
abbrev inputsOf (cmds : List (Nat × Instr)) : List HostEvent := cmds.map fun c => commandAt c.1 c.2

/-! ### The reader's feed -/

/-- The commands by which the reader feeds the bytes `bs` (R117, R123). -/
def feedCommands (times : List Nat) (bs : List Byte) : List (Nat × Instr) := times.zip (bs.map .ckByte)

section
variable {times : List Nat} {bs : List Byte}

theorem exists_byte_of_mem_feedCommands {c : Nat × Instr} (h : c ∈ feedCommands times bs) :
    ∃ b, c.2 = .ckByte b := by
  obtain ⟨_, hbyte⟩ := List.of_mem_zip h
  obtain ⟨b, _, hb⟩ := List.mem_map.mp hbyte
  exact ⟨b, hb.symm⟩

/-- The reader feeds its commands and leaves the stream after the bytes. -/
theorem feedFrame_eq (h : times.length = bs.length) (s : State) (rest : List Byte) :
    feedFrame times s (bs ++ rest) = .next (afterEvents (inputsOf (feedCommands times bs)) s, rest) := by
  induction bs generalizing times s with
  | nil =>
    obtain rfl := List.length_eq_zero_iff.mp h
    rfl
  | cons b bs ih =>
    obtain ⟨nowMs, times, rfl⟩ := List.exists_cons_of_length_eq_add_one h
    simp only [List.cons_append, feedFrame, applyEvent_eq, andThen]
    exact ih (Nat.succ.inj h) _

theorem filterMap_fedByte_feedCommands (h : times.length = bs.length) :
    (inputsOf (feedCommands times bs)).filterMap fedByte = bs := by
  induction bs generalizing times with
  | nil => simp [feedCommands]
  | cons b bs ih =>
    obtain ⟨nowMs, times, rfl⟩ := List.exists_cons_of_length_eq_add_one h
    have hrest := ih (times := times) (Nat.succ.inj h)
    exact (List.filterMap_cons_some (fedByte_ckByte nowMs b)).trans (congrArg (b :: ·) hrest)

/-- The reader does not touch a finished FS, and clears nothing. -/
theorem armsOrResets_of_mem_feedCommands :
    ∀ e ∈ inputsOf (feedCommands times bs), armsOrResets e = false := by
  refine List.forall_mem_map.mpr fun c hc => ?_
  obtain ⟨b, hb⟩ := exists_byte_of_mem_feedCommands hc
  rw [hb, armsOrResets_commandAt]
  rfl

theorem clearsOrResets_of_mem_feedCommands :
    ∀ e ∈ inputsOf (feedCommands times bs), clearsOrResets e = false := by
  refine List.forall_mem_map.mpr fun c hc => ?_
  obtain ⟨b, hb⟩ := exists_byte_of_mem_feedCommands hc
  rw [hb, clearsOrResets_commandAt]
  rfl

end

/-- Up to 30 bytes in all keep the duty of R124. -/
theorem feedsWithinFrame_map_ckByte {fed : Nat} {bs : List Byte} (h : fed + bs.length ≤ 30) :
    feedsWithinFrame fed (bs.map .ckByte) = true := by
  induction bs generalizing fed with
  | nil => rfl
  | cons b bs ih =>
    rw [List.length_cons] at h
    have hfed : fed < frameLen := show fed < 30 by omega
    simp [feedsWithinFrame, hfed, ih (fed := fed + 1) (by omega)]

/-! ### The polls -/

/-- The polls that offer the two marker bytes. -/
def markerPolls (t1 t2 : Nat) : List (Nat × Instr) := [(t1, .fsPollByte magic0), (t2, .fsPollByte magic1)]

section
variable {s : State}

/-- In the hunt before the deadline the offered byte is taken, at the sampled clock (R74). -/
theorem afterEvent_fsPollByte_of_not_expired {nowMs : Nat} (hhunt : hunting s.fsState = true)
    (h : expired s (sampleClock s.cfg nowMs) = false) (b : Byte) :
    afterEvent (commandAt nowMs (.fsPollByte b)) s = consumeByte b (defaultConsumed (sampleNow nowMs s)) :=
  (afterEvent_commandAt nowMs (.fsPollByte b) s).trans (afterCommand_fsPollByte_of_not_expired b hhunt h)

/-- So the polling loop goes on with the stream after that byte (R34). -/
theorem huntLoop_cons_of_not_expired {nowMs : Nat} (hhunt : hunting s.fsState = true)
    (h : expired s (sampleClock s.cfg nowMs) = false) (turns : List PollTurn) (b : Byte) (stream : List Byte) :
    huntLoop (⟨nowMs, true⟩ :: turns) s (b :: stream) =
      huntLoop turns (afterEvent (commandAt nowMs (.fsPollByte b)) s) stream := by
  have hinput : pollInput ⟨nowMs, true⟩ (b :: stream) = commandAt nowMs (.fsPollByte b) := rfl
  have hconsumed : (afterEvent (commandAt nowMs (.fsPollByte b)) s).fsConsumed = true := by
    rw [afterEvent_fsPollByte_of_not_expired hhunt h, consumeByte_fsConsumed]
  rw [huntLoop_cons_of_hunting hhunt, hinput, streamAfter, if_pos hconsumed, List.tail_cons]

/-- A marker offered before the deadline is found at once: HUNT, GOT42, SYNCED, under both policies (R61, R62). -/
theorem huntLoop_marker {t1 t2 : Nat} (hhunt : s.fsState = .hunt)
    (h1 : expired s (sampleClock s.cfg t1) = false) (h2 : expired s (sampleClock s.cfg t2) = false)
    (stream : List Byte) :
    huntLoop [⟨t1, true⟩, ⟨t2, true⟩] s (marker ++ stream) =
        .next (afterEvents (inputsOf (markerPolls t1 t2)) s, stream) ∧
      (afterEvents (inputsOf (markerPolls t1 t2)) s).fsState = .synced := by
  have hhunting : hunting s.fsState = true := by rw [hhunt]; rfl
  have hfirst := huntLoop_cons_of_not_expired hhunting h1 [⟨t2, true⟩] magic0 (magic1 :: stream)
  have hafter := afterEvent_fsPollByte_of_not_expired hhunting h1 magic0
  have hgot42 : (afterEvent (commandAt t1 (.fsPollByte magic0)) s).fsState = .got42 := by
    simp [hafter, hhunt, detectorNext]
  have hlate : expired (afterEvent (commandAt t1 (.fsPollByte magic0)) s) (sampleClock s.cfg t2) = false := by
    rw [← h2, hafter, expired, expired, fsElapsed, fsElapsed, consumeByte_cfg, consumeByte_fsTStart]
    simp [hhunt, detectorNext]
  rw [← afterEvent_cfg (commandAt t1 (.fsPollByte magic0)) s] at hlate
  have hhunting' : hunting (afterEvent (commandAt t1 (.fsPollByte magic0)) s).fsState = true := by rw [hgot42]; rfl
  refine ⟨hfirst.trans (huntLoop_cons_of_not_expired hhunting' hlate [] magic1 stream), ?_⟩
  calc (afterEvents (inputsOf (markerPolls t1 t2)) s).fsState
      = (consumeByte magic1 _).fsState :=
        congrArg State.fsState (afterEvent_fsPollByte_of_not_expired hhunting' hlate magic1)
    _ = .synced := (consumeByte_fsState magic1 _).trans
        ((detectorNext_eq_synced_iff hhunting' _ _).mpr ⟨hgot42, rfl⟩)

end

/-! ### The attempt -/

/-- The commands of an attempt that offers the marker in its first two polls and then feeds `frame`. -/
def attemptCommands (startMs t1 t2 : Nat) (times : List Nat) (frame : List Byte) : List (Nat × Instr) :=
  (startMs, .start) :: (markerPolls t1 t2 ++ feedCommands times frame)

/-- Within the budget after a START the deadline has not passed (R60, R94). -/
theorem not_expired_afterEvent_start {s : State} {startMs nowMs : Nat} (hc : s.cfg.wf) (hle : startMs ≤ nowMs)
    (hlt : nowMs < startMs + s.cfg.budgetMs) :
    expired (afterEvent (commandAt startMs .start) s) (sampleClock s.cfg nowMs) = false := by
  obtain ⟨_, hbudget⟩ := hc
  have hstart : (afterEvent (commandAt startMs .start) s).fsTStart = sampleClock s.cfg startMs := by
    rw [afterEvent_commandAt]; rfl
  have hiff := expired_sampleClock_iff (s := afterEvent (commandAt startMs .start) s) (armMs := startMs)
    (nowMs := nowMs) (by rw [afterEvent_cfg, hstart]) hle (by rw [afterEvent_cfg]; omega)
  rw [afterEvent_cfg] at hiff
  rw [← Bool.not_eq_true, hiff]
  omega

/-- An attempt that offers the marker within the budget ends SYNCED where its commands lead, and leaves the stream
after the frame. -/
theorem attempt_of_marker_within_budget {s : State} {startMs t1 t2 : Nat} {times : List Nat} {frame : List Byte}
    (hc : s.cfg.wf) (hle1 : startMs ≤ t1) (hlt1 : t1 < startMs + s.cfg.budgetMs) (hle2 : startMs ≤ t2)
    (hlt2 : t2 < startMs + s.cfg.budgetMs) (htimes : times.length = 30) (hframe : frame.length = 30)
    (rest : List Byte) :
    attempt startMs [⟨t1, true⟩, ⟨t2, true⟩] times s (marker ++ (frame ++ rest)) =
        .next (afterEvents (inputsOf (attemptCommands startMs t1 t2 times frame)) s, rest) ∧
      (afterEvents (inputsOf (attemptCommands startMs t1 t2 times frame)) s).fsState = .synced := by
  have harmed : (afterEvent (commandAt startMs .start) s).fsState = .hunt := by
    rw [afterEvent_commandAt]; rfl
  have h1 := not_expired_afterEvent_start hc hle1 hlt1
  have h2 := not_expired_afterEvent_start hc hle2 hlt2
  rw [← afterEvent_cfg (commandAt startMs .start) s] at h1 h2
  obtain ⟨hloop, hsynced⟩ := huntLoop_marker harmed h1 h2 (frame ++ rest)
  have hcmds : afterEvents (inputsOf (attemptCommands startMs t1 t2 times frame)) s =
      afterEvents (inputsOf (feedCommands times frame))
        (afterEvents (inputsOf (markerPolls t1 t2)) (afterEvent (commandAt startMs .start) s)) := by
    rw [attemptCommands, inputsOf, List.map_cons, List.map_append, afterEvents, afterEvents_append]
  have htake : times.take frameLen = times := List.take_of_length_le htimes.le
  rw [hcmds]
  constructor
  · simp only [attempt, applyEvent_eq, andThen, hloop, hsynced, if_true, htake]
    exact feedFrame_eq (htimes.trans hframe.symm) _ rest
  · rw [afterEvents_fsState_of_not_hunting armsOrResets_of_mem_feedCommands (by rw [hsynced]; rfl), hsynced]

section
variable {startMs t1 t2 : Nat} {times : List Nat}

/-- The polls between START and the feed do not touch the CK, so it holds the frame (R88, R91). -/
theorem afterEvents_attemptCommands_holdsFrame {r : List Byte} {hi lo : Byte} (htimes : times.length = 30)
    (hr : r.length = 28) (s : State) :
    (afterEvents (inputsOf (attemptCommands startMs t1 t2 times (r ++ [hi, lo]))) s).holdsFrame r hi lo := by
  have hnoclear : ∀ e ∈ inputsOf (markerPolls t1 t2), clearsOrResets e = false := by
    simp [markerPolls, clearsOrResets_commandAt, isClear]
  have hnofeed : (inputsOf (markerPolls t1 t2)).filterMap fedByte = [] := by
    simp [markerPolls, fedByte, ckActionOf]
  have hcmds : inputsOf (attemptCommands startMs t1 t2 times (r ++ [hi, lo])) =
      commandAt startMs .start :: (inputsOf (markerPolls t1 t2) ++ inputsOf (feedCommands times (r ++ [hi, lo]))) := by
    rw [attemptCommands, inputsOf, List.map_cons, List.map_append]
  rw [hcmds]
  refine afterEvents_clear_holdsFrame (.inr rfl) startMs (fun e he => ?_) hr ?_ s
  · exact (List.mem_append.mp he).elim (hnoclear e) (clearsOrResets_of_mem_feedCommands e)
  · rw [List.filterMap_append, hnofeed, filterMap_fedByte_feedCommands (by simp [htimes, hr]), List.nil_append]

/-- An attempt keeps the duty of R124, so it raises no fault. -/
theorem afterEvents_attemptCommands_fault {frame : List Byte} (htimes : times.length = 30)
    (hframe : frame.length = 30) (s : State) :
    (afterEvents (inputsOf (attemptCommands startMs t1 t2 times frame)) s).fault = s.fault := by
  have hfed : (feedCommands times frame).map Prod.snd = frame.map .ckByte :=
    List.map_snd_zip (by simp [htimes, hframe])
  refine afterEvents_fault_of_feedsWithinFrame ?_
  simp only [attemptCommands, markerPolls, List.map_cons, List.cons_append, List.nil_append, hfed]
  exact feedsWithinFrame_map_ckByte (fed := 0) (by simp [hframe])

end

/-- Settles O54: the attempt ends SYNCED, the accumulator holds the frame, and its checksum is the sum. -/
theorem validFrameIsAccepted : Obligations.ValidFrameIsAccepted := by
  intro s startMs t1 t2 readTimes r rest hi lo hc hle1 hlt1 hle2 hlt2 htimes hr hchecksum
  have hframe : (r ++ [hi, lo]).length = 30 := by simp [hr]
  have hstream : [0x42#8, 0x4D#8] ++ r ++ [hi, lo] ++ rest = marker ++ ((r ++ [hi, lo]) ++ rest) := by
    simp only [List.append_assoc]; rfl
  obtain ⟨hattempt, hsynced⟩ := attempt_of_marker_within_budget hc hle1 hlt1 hle2 hlt2 htimes hframe rest
  obtain ⟨hcount, hsum, hexp⟩ := afterEvents_attemptCommands_holdsFrame (startMs := startMs) (t1 := t1) (t2 := t2)
    (hi := hi) (lo := lo) htimes hr s
  have hactual : frameSum r = hi ++ lo := by rw [hchecksum, ofNat_mod_65536, frameSum]
  rw [hactual] at hsum
  have hverdict := And.intro hcount (hsum.trans hexp.symm)
  refine ⟨_, hstream ▸ hattempt, hsynced, (ckMatch_iff _).mpr hverdict, hsum, ?_,
    afterEvents_attemptCommands_fault htimes hframe s⟩
  rw [readResult_of_synced hsynced, if_pos hverdict]

end Sys2Proof.Machine
end

section
/-! Between two commands (spec/60_exceptions.md, R112): the step with an empty inbox. -/

namespace Sys2Proof.Machine

/-- Settles O11: the step applies an input only when one waits. -/
theorem blockWithoutInputHoldsItsState : Obligations.BlockWithoutInputHoldsItsState :=
  fun _ hinbox => step_of_inbox_nil hinbox

end Sys2Proof.Machine
end
